-- ==== Sys2Proof/Word.lean ====
section
/-! DEFINITION. The value types of the core: 32-bit words and bytes (00_scope R7, R10). All values are
unsigned; `+` on `Word` is the spec's `add32` and `~~~` its `not32` (R11), `+` on `BitVec 64` is `add64`. -/

namespace Sys2Proof

/-- A 32-bit unsigned word (R7: word width W). -/
abbrev Word := BitVec 32

/-- An 8-bit byte (R2, R10). -/
abbrev Byte := BitVec 8

end Sys2Proof
end

