-- ==== Sys2Proof/Syntax.lean ====
section
/-! DEFINITION. The instructions: one constructor per row of spec/opcode_table.json. -/

namespace Sys2Proof

/-- The sixteen instructions of the core, in the three formats of 30_encoding.md. ABSB, PADZ and FLT carry no operand:
their 4-bit codes have none (R86), and the machine supplies it (R107, R152, R176). -/
inductive Instr where
  /-- INIT, format CMD (R101). -/
  | init
  /-- UPD x, format CMD: `data` is the message byte (R102, R82). -/
  | upd (data : BitVec 8)
  /-- FIN, format CMD (R103). -/
  | fin
  /-- STEP.F, format ROMROW: message-word index, rotation amount, additive constant (R125, R84). -/
  | stepF (g : BitVec 4) (rot : BitVec 5) (k : BitVec 32)
  /-- STEP.G, format ROMROW (R126). -/
  | stepG (g : BitVec 4) (rot : BitVec 5) (k : BitVec 32)
  /-- STEP.H, format ROMROW (R127). -/
  | stepH (g : BitVec 4) (rot : BitVec 5) (k : BitVec 32)
  /-- STEP.I, format ROMROW (R128). -/
  | stepI (g : BitVec 4) (rot : BitVec 5) (k : BitVec 32)
  /-- LDIV, format SEQ (R108). -/
  | ldiv
  /-- ABSB, format SEQ (R107). -/
  | absb
  /-- CBEG, format SEQ (R122). -/
  | cbeg
  /-- CEND, format SEQ (R129). -/
  | cend
  /-- PAD80, format SEQ (R151). -/
  | pad80
  /-- PADZ, format SEQ (R152). -/
  | padz
  /-- PADL, format SEQ (R153). -/
  | padl
  /-- SER, format SEQ (R155). -/
  | ser
  /-- FLT, format SEQ (R176). -/
  | flt
deriving DecidableEq, Repr

/-- The three encoded formats (30_encoding.md, opening table; R87: each of one fixed width). -/
inductive Format where
  | cmd
  | romRow
  | seq
deriving DecidableEq, Repr

/-- The width in bits of a format (R80, R84, R86). -/
def Format.width : Format → Nat
  | .cmd => 10
  | .romRow => 43
  | .seq => 4

/-- The format an instruction is encoded in (the table's column `format`). -/
def Instr.format : Instr → Format
  | .init | .upd _ | .fin => .cmd
  | .stepF _ _ _ | .stepG _ _ _ | .stepH _ _ _ | .stepI _ _ _ => .romRow
  | .ldiv | .absb | .cbeg | .cend | .pad80 | .padz | .padl | .ser | .flt => .seq

end Sys2Proof
end

