-- ==== Sys2Proof/WellFormed.lean ====
section
/-! DEFINITION. Which instruction terms the spec gives a full meaning: a step's rotation amount is 1..31 (R84). -/

namespace Sys2Proof

/-- R84: `s`, the "left-rotation amount of the step, 1..31". A step with amount 0 still runs (R85 selects it by fsel
alone), with a free rotation result (log entry 9). -/
def Instr.wellFormed : Instr → Bool
  | .stepF _ rot _ => rot != 0
  | .stepG _ rot _ => rot != 0
  | .stepH _ rot _ => rot != 0
  | .stepI _ rot _ => rot != 0
  | .init => true
  | .upd _ => true
  | .fin => true
  | .ldiv => true
  | .absb => true
  | .cbeg => true
  | .cend => true
  | .pad80 => true
  | .padz => true
  | .padl => true
  | .ser => true
  | .flt => true

end Sys2Proof
end

