-- ==== Sys2Proof/Decode.lean ====
section
/-! DEFINITION. Decoding of the three formats, total, rejecting by name, and the encoder (30_encoding.md R80 to R87). -/

namespace Sys2Proof

/-- An encoded word of one of the three formats, each of one fixed width (R87). -/
inductive Code where
  /-- A command word `cmd_i[9:0]` (R80). -/
  | cmd (w : BitVec 10)
  /-- A row of the constant ROM (R84). -/
  | row (r : BitVec 43)
  /-- A sequencer code (R86). -/
  | seq (c : BitVec 4)
deriving DecidableEq, Repr

/-- Why a word decodes to no instruction. -/
inductive DecodeError where
  /-- One of the 766 reserved command words (R83). -/
  | reservedCommand (w : BitVec 10)
  /-- Sequencer code 0x0: IDLE, no micro-op (R86). -/
  | seqIdle
  /-- Sequencer codes 0x4 to 0x7: a step, whose instruction is the ROM row at `i` (R85, R86). -/
  | seqStepNeedsRow
  /-- Sequencer codes 0xE and 0xF: unused (R86). -/
  | seqUnused
deriving DecidableEq, Repr

/-- The result of decoding. -/
inductive Decoded where
  | instr (i : Instr)
  | rejected (e : DecodeError)
deriving DecidableEq, Repr

/-- The decoded instruction, if there is one. -/
def Decoded.toOption : Decoded → Option Instr
  | .instr i => some i
  | .rejected _ => none

/-- R81, in the order it gives: UPD by the mask 0x300, then INIT, then FIN; everything else is reserved. -/
def decodeCmd (w : BitVec 10) : Decoded :=
  if w &&& 0x300#10 = 0x100#10 then .instr (.upd (w.extractLsb' 0 8))
  else if w = 0x000#10 then .instr .init
  else if w = 0x200#10 then .instr .fin
  else .rejected (.reservedCommand w)

/-- `fsel`, bits 42:41 of a ROM row (R84). -/
def rowFsel (r : BitVec 43) : BitVec 2 := r.extractLsb' 41 2

/-- `g`, bits 40:37 of a ROM row (R84). -/
def rowG (r : BitVec 43) : BitVec 4 := r.extractLsb' 37 4

/-- `s`, bits 36:32 of a ROM row (R84). -/
def rowRot (r : BitVec 43) : BitVec 5 := r.extractLsb' 32 5

/-- `K`, bits 31:0 of a ROM row (R84). -/
def rowK (r : BitVec 43) : BitVec 32 := r.extractLsb' 0 32

/-- R85: a row selects its step by `fsel` alone; no value of `fsel` is reserved. -/
def decodeRow (r : BitVec 43) : Decoded :=
  if rowFsel r = 0 then .instr (.stepF (rowG r) (rowRot r) (rowK r))
  else if rowFsel r = 1 then .instr (.stepG (rowG r) (rowRot r) (rowK r))
  else if rowFsel r = 2 then .instr (.stepH (rowG r) (rowRot r) (rowK r))
  else .instr (.stepI (rowG r) (rowRot r) (rowK r))

/-- R86: the micro-op a sequencer code names. -/
def decodeSeq (c : BitVec 4) : Decoded :=
  if c = 0x0 then .rejected .seqIdle
  else if c = 0x1 then .instr .ldiv
  else if c = 0x2 then .instr .absb
  else if c = 0x3 then .instr .cbeg
  else if c = 0x4 ∨ c = 0x5 ∨ c = 0x6 ∨ c = 0x7 then .rejected .seqStepNeedsRow
  else if c = 0x8 then .instr .cend
  else if c = 0x9 then .instr .pad80
  else if c = 0xA then .instr .padz
  else if c = 0xB then .instr .padl
  else if c = 0xC then .instr .ser
  else if c = 0xD then .instr .flt
  else .rejected .seqUnused

/-- Decoding of a word of any format: total, and a function of the word alone (R81). -/
def decode : Code → Decoded
  | .cmd w => decodeCmd w
  | .row r => decodeRow r
  | .seq c => decodeSeq c

/-- The word an instruction is encoded by: R80 and R81 for commands, the field order `fsel, g, s, K` of R84 for rows,
the codes of R86 for micro-ops. -/
def encode : Instr → Code
  | .init => .cmd 0x000#10
  | .upd data => .cmd (0b01#2 ++ data)
  | .fin => .cmd 0x200#10
  | .stepF g rot k => .row (0b00#2 ++ g ++ rot ++ k)
  | .stepG g rot k => .row (0b01#2 ++ g ++ rot ++ k)
  | .stepH g rot k => .row (0b10#2 ++ g ++ rot ++ k)
  | .stepI g rot k => .row (0b11#2 ++ g ++ rot ++ k)
  | .ldiv => .seq 0x1
  | .absb => .seq 0x2
  | .cbeg => .seq 0x3
  | .cend => .seq 0x8
  | .pad80 => .seq 0x9
  | .padz => .seq 0xA
  | .padl => .seq 0xB
  | .ser => .seq 0xC
  | .flt => .seq 0xD

/-- The format a code word belongs to. -/
def Code.format : Code → Format
  | .cmd _ => .cmd
  | .row _ => .romRow
  | .seq _ => .seq

/-- The code word that the opcode table's numbering names: the table's widths 4, 10 and 43 in whole bytes are 8, 16 and
48, and the bits above the format's width are 0 (log entry 19). -/
def codeOfTableWord (nbits w : Nat) : Option Code :=
  if nbits ≤ 8 then if w < 2 ^ 4 then some (.seq (BitVec.ofNat 4 w)) else none
  else if nbits ≤ 16 then if w < 2 ^ 10 then some (.cmd (BitVec.ofNat 10 w)) else none
  else if nbits ≤ 48 then if w < 2 ^ 43 then some (.row (BitVec.ofNat 43 w)) else none
  else none

/-- The instruction the decoder reads from a word numbered as spec/opcode_table.json numbers it. -/
def decodeTableWord (nbits w : Nat) : Option Instr :=
  match codeOfTableWord nbits w with
  | some code => (decode code).toOption
  | none => none

end Sys2Proof
end

