-- ==== Sys2Proof/Config.lean ====
section
/-! DEFINITION. What the spec leaves open: free values and the four unmodelled latencies. None has a body, so no
proof can learn a value. The fixed parameters of 00_scope R7 and R8 stand in Machine/Tables.lean. -/

namespace Sys2Proof.Config

/-- The free 32-bit value number `n`: what an undef register among a, b, c, d holds (R22, R129; log entry 4). -/
opaque freeWord : Nat → Word

/-- The free 6-bit value number `n`: what an undef `i` (R24) or an undef `LEN` (R29) holds (log entries 4, 5). -/
opaque freeSix : Nat → BitVec 6

/-- What a byte that memory lists no value for reads as: `freeByte address n` (R66, U8; log entry 6). -/
opaque freeByte : Nat → Nat → Byte

/-- `rotl32(x, 0)`, which R11 leaves undefined (log entry 9). -/
opaque rotlByZero : Word → Word

/-- LATENCY_INIT of 92_eei_decisions D18: finite, read by no rule (log entry 15). -/
opaque latencyInit : Nat

/-- LATENCY_UPD of D18: finite, read by no rule (log entry 15). -/
opaque latencyUpd : Nat

/-- LATENCY_UPD_COMPRESS of D18: finite, read by no rule (log entry 15). -/
opaque latencyUpdCompress : Nat

/-- LATENCY_FIN of D18: finite, read by no rule (log entry 15). -/
opaque latencyFin : Nat

end Sys2Proof.Config
end

