-- ==== Sys2Proof/Machine/Tables.lean ====
section
/-! DEFINITION. The fixed contents of the core: the initial constants, the constant ROM and MAX_BYTES
(00_scope R7, R8; 10_state R21; 41_compressor R130; 60_exceptions R172). -/

namespace Sys2Proof.Machine

/-- The four words `S[0..3]` of the chaining state (R20). -/
structure Chain where
  w0 : Word
  w1 : Word
  w2 : Word
  w3 : Word
deriving DecidableEq, Repr

/-- The initial constants IV (R21). -/
def iv : Chain :=
  { w0 := 0x67452301, w1 := 0xEFCDAB89, w2 := 0x98BADCFE, w3 := 0x10325476 }

/-- MAX_BYTES, the largest message length (R172): 2^61 - 1. -/
def maxBytes : BitVec 64 := 0x1FFFFFFFFFFFFFFF

/-- ROM rows 0 to 15, round 0, the last column of R130. -/
def romRound0 : List (BitVec 43) :=
  [0x007D76AA478, 0x02CE8C7B756, 0x051242070DB, 0x076C1BDCEEE,
   0x087F57C0FAF, 0x0AC4787C62A, 0x0D1A8304613, 0x0F6FD469501,
   0x107698098D8, 0x12C8B44F7AF, 0x151FFFF5BB1, 0x176895CD7BE,
   0x1876B901122, 0x1ACFD987193, 0x1D1A679438E, 0x1F649B40821]

/-- ROM rows 16 to 31, round 1, the last column of R130. -/
def romRound1 : List (BitVec 43) :=
  [0x225F61E2562, 0x2C9C040B340, 0x36E265E5A51, 0x214E9B6C7AA,
   0x2A5D62F105D, 0x34902441453, 0x3EED8A1E681, 0x294E7D3FBC8,
   0x32521E1CDE6, 0x3C9C33707D6, 0x26EF4D50D87, 0x314455A14ED,
   0x3A5A9E3E905, 0x249FCEFA3F8, 0x2EE676F02D9, 0x3948D2A4C8A]

/-- ROM rows 32 to 47, round 2, the last column of R130. -/
def romRound2 : List (BitVec 43) :=
  [0x4A4FFFA3942, 0x50B8771F681, 0x5706D9D6122, 0x5D7FDE5380C,
   0x424A4BEEA44, 0x48B4BDECFA9, 0x4F0F6BB4B60, 0x557BEBFBC70,
   0x5A4289B7EC6, 0x40BEAA127FA, 0x470D4EF3085, 0x4D704881D05,
   0x524D9D4D039, 0x58BE6DB99E5, 0x5F01FA27CF8, 0x457C4AC5665]

/-- ROM rows 48 to 63, round 3, the last column of R130. -/
def romRound3 : List (BitVec 43) :=
  [0x606F4292244, 0x6EA432AFF97, 0x7CFAB9423A7, 0x6B5FC93A039,
   0x786655B59C3, 0x66A8F0CCC92, 0x74FFFEFF47D, 0x63585845DD1,
   0x7066FA87E4F, 0x7EAFE2CE6E0, 0x6CFA3014314, 0x7B54E0811A1,
   0x686F7537E82, 0x76ABD3AF235, 0x64F2AD7D2BB, 0x735EB86D391]

/-- The constant ROM: 64 rows of 43 bits (R53, R130). -/
def romTable : Vector (BitVec 43) 64 :=
  ⟨(romRound0 ++ romRound1 ++ romRound2 ++ romRound3).toArray, rfl⟩

end Sys2Proof.Machine
end

