-- ==== Sys2Proof/Machine/State.lean ====
section
/-! DEFINITION. The state of one core: everything 10_state.md section 1 and rule R37 give it, and the model's own
fields (INVENTORY.md, State). Registers keep the spec's names. -/

namespace Sys2Proof.Machine

/-- A byte space as a list of (address, byte) cells, addresses strictly rising. An unlisted address has no value: the
spec's `undef` (00_scope R12; log entry 6). -/
abbrev Memory := List Host.Cell

/-- The phase of the Accumulator: three constructors (R30, "a model's type has three constructors"). -/
inductive Phase where
  /-- 0b00: accepts UPD and FIN. -/
  | absorb
  /-- 0b01: FIN has completed, DIG holds the digest. -/
  | done
  /-- 0b10: a fault was raised. -/
  | fault
deriving DecidableEq, Repr

/-- The cause of a fault (R174). -/
inductive Cause where
  /-- Cause code 1 (R171). -/
  | misuse
  /-- Cause code 2 (R172). -/
  | overflow
  /-- Cause code 3 (R173). -/
  | illegal
deriving DecidableEq, Repr

/-- The contents of ERR (R31). -/
inductive ErrCode where
  /-- 0: no fault. -/
  | none
  /-- 1 (R171). -/
  | misuse
  /-- 2 (R172). -/
  | overflow
  /-- 3 (R173). -/
  | illegal
deriving DecidableEq, Repr

/-- The sequencer register: the fourteen used codes of R86, which "a model at the micro-op level may use an inductive
type with these fourteen constructors" for. -/
inductive Seq where
  | idle
  | ldiv
  | absb
  | cbeg
  | stepF
  | stepG
  | stepH
  | stepI
  | cend
  | pad80
  | padz
  | padl
  | ser
  | flt
deriving DecidableEq, Repr

/-- The level of R9 a run is at (log entry 1). -/
inductive Level where
  /-- One accepted command is one step: the normative level. -/
  | command
  /-- One micro-op is one step. -/
  | micro
deriving DecidableEq, Repr

/-- Where control returns to after CEND (R134; log entry 10). -/
inductive Caller where
  /-- The compression of a block that an UPD filled (R102). -/
  | upd
  /-- The first of two final blocks (R150). -/
  | finFirst
  /-- The last final block, the only one or the second (R150). -/
  | finLast
deriving DecidableEq, Repr

/-- What the host does at one clock edge (R37, R88, R213). -/
inductive HostEvent where
  /-- `rst_i` = 1. -/
  | rst
  /-- `cmd_valid_i` = 1 with this word on `cmd_i`, held until it is accepted (R205). -/
  | cmd (w : BitVec 10)
  /-- `rst_i` = 0 and `cmd_valid_i` = 0. -/
  | quiet
deriving DecidableEq, Repr

/-- The state of one core. -/
structure State where
  /-- Chaining state `S[0..3]` (R20). -/
  S : Chain
  /-- Byte counter (R28). -/
  CNT : BitVec 64
  /-- Number of pending bytes (R29). -/
  LEN : BitVec 6
  /-- Block buffer, addresses 0..63 (R51). -/
  BUF : Memory
  /-- Working register a (R22). -/
  a : Word
  /-- Working register b (R22). -/
  b : Word
  /-- Working register c (R22). -/
  c : Word
  /-- Working register d (R22). -/
  d : Word
  /-- Step counter, the ROM address (R24). -/
  i : BitVec 6
  /-- Constant ROM (R53). -/
  ROM : Vector (BitVec 43) 64
  /-- Digest register, addresses 0..15; no byte listed means undef (R34). -/
  DIG : Memory
  /-- Lifecycle phase (R30). -/
  PHASE : Phase
  /-- Cause of the fault that put the core in FAULT (R31). -/
  ERR : ErrCode
  /-- Sticky record of fault causes: bit 0 MISUSE, bit 1 OVERFLOW, bit 2 ILLEGAL (R32). -/
  ERRLOG : BitVec 3
  /-- Sequencer register (R25). -/
  SEQ : Seq
  /-- The model's own: operand of the ABSB in progress (log entry 10). -/
  opData : Byte
  /-- The model's own: lower bound of the PADZ in progress (log entry 10). -/
  opLo : BitVec 7
  /-- The model's own: upper bound of the PADZ in progress (log entry 10). -/
  opHi : BitVec 6
  /-- The model's own: cause of the FLT in progress (log entry 10). -/
  opCause : Cause
  /-- The model's own: where CEND returns to (log entry 10). -/
  caller : Caller
  /-- The model's own: the level of R9 (log entry 1). -/
  level : Level
  /-- The model's own: what the host does at the coming clock edges, next first (log entry 2). -/
  stim : List HostEvent
  /-- The model's own: number of the next free value (log entry 11). -/
  fresh : Nat
deriving DecidableEq, Repr

/-- The reasons the model stops with a fault: there are none. The core's own faults are next states (R176), and no
command or micro-op has an outcome the spec leaves without an effect (R135, R170). -/
inductive Fault
deriving DecidableEq, Repr

/-- The reasons an instruction has no meaning. -/
inductive Refusal where
  /-- Raised by an arm of `exec` for an instruction that has no meaning yet; safe. No arm raises it: every instruction
  has its meaning. -/
  | notModelled (mnemonic : String)
deriving DecidableEq, Repr

/-- The state right after reset (R38, R200). `a`, `b`, `c`, `d` and `i` are undef there and hold the value 0 that log
entry 3 names; the model's own fields hold the values of log entries 1, 2, 10 and 11. -/
def State.reset : State where
  S := iv
  CNT := 0
  LEN := 0
  BUF := []
  a := 0
  b := 0
  c := 0
  d := 0
  i := 0
  ROM := romTable
  DIG := []
  PHASE := .absorb
  ERR := .none
  ERRLOG := 0
  SEQ := .idle
  opData := 0
  opLo := 0
  opHi := 0
  opCause := .misuse
  caller := .upd
  level := .command
  stim := []
  fresh := 0

end Sys2Proof.Machine
end

