-- ==== Sys2Proof/Machine/Ops.lean ====
section
/-! DEFINITION. The shared operations: byte memory (00_scope R12), undef registers, load of the initial values and reset
(R108, R200), and fault entry (R176) with the way back beside it (R178: INIT, that is LDIV, or reset). -/

namespace Sys2Proof.Machine

/-! ### Byte memory -/

/-- The byte listed at an address, if there is one. -/
def Memory.read : Memory → Nat → Option Byte
  | [], _ => none
  | (x, v) :: rest, addr => if addr = x then some v else Memory.read rest addr

/-- `space[addr] <- v` (R12), keeping addresses strictly rising. -/
def Memory.write : Memory → Nat → Byte → Memory
  | [], addr, v => [(addr, v)]
  | (x, u) :: rest, addr, v =>
    if addr < x then (addr, v) :: (x, u) :: rest
    else if addr = x then (addr, v) :: rest
    else (x, u) :: Memory.write rest addr v

/-- `MemWrite` of a list of bytes, the first at `addr` (R12). -/
@[irreducible] def Memory.writeBytes : Memory → Nat → List Byte → Memory
  | m, _, [] => m
  | m, addr, v :: rest => Memory.writeBytes (m.write addr v) (addr + 1) rest

/-- `for j in lo..hi: MemWrite(space, j, 1, 0x00)`, nothing when `lo > hi` (R13, R152). -/
def Memory.zeroFill (m : Memory) (lo hi : Nat) : Memory :=
  m.writeBytes lo (List.replicate (hi + 1 - lo) 0)

/-- The value a byte read gives: the listed byte, else the free value of the address (R66, U8; log entry 6). -/
def Memory.byteAt (m : Memory) (fresh addr : Nat) : Byte :=
  (m.read addr).getD (Config.freeByte addr fresh)

/-- The canonical form: addresses strictly rising. -/
def Memory.wf : Memory → Bool
  | [] => true
  | [_] => true
  | (x, _) :: (y, v) :: rest => decide (x < y) && Memory.wf ((y, v) :: rest)

/-- Every listed address lies below `bound`. -/
def Memory.within (bound : Nat) (m : Memory) : Bool := m.all fun cell => decide (cell.1 < bound)

/-! ### Undef registers -/

/-- `a, b, c, d, i` become undef (R129): each takes a free value (log entry 4). -/
def freeWork (s : State) : State :=
  { s with
    a := Config.freeWord s.fresh
    b := Config.freeWord (s.fresh + 1)
    c := Config.freeWord (s.fresh + 2)
    d := Config.freeWord (s.fresh + 3)
    i := Config.freeSix (s.fresh + 4)
    fresh := s.fresh + 5 }

/-- `LEN` becomes undef, as it is after FIN (R29, R103): it takes a free value (log entry 5). -/
def freeLen (s : State) : State :=
  { s with LEN := Config.freeSix s.fresh, fresh := s.fresh + 1 }

/-- Every byte of `BUF` becomes undef, as it is after INIT (R38, R66, D16): none is listed (log entry 7). -/
def dropBuffer (s : State) : State := { s with BUF := [] }

/-! ### Initial values and reset -/

/-- LDIV (R108). BUF, a, b, c, d, i and ERRLOG are not written. -/
def loadInitial (s : State) : State :=
  { s with S := iv, CNT := 0, LEN := 0, DIG := [], ERR := .none, PHASE := .absorb }

/-- INIT as a whole: a fresh Accumulator (R101) is LDIV, with BUF undef afterwards (R38; log entry 7). -/
def createAccumulator (s : State) : State := dropBuffer (loadInitial s)

/-- A clock edge with `rst_i` = 1 (R200): LDIV, ERRLOG <- 0, SEQ <- IDLE; BUF and a, b, c, d, i are undef afterwards
(R38; log entry 14); the model's operand fields return to their reset values. ROM is not affected (R38). -/
def resetCore (s : State) : State :=
  { createAccumulator (freeWork s) with
    ERRLOG := 0
    SEQ := .idle
    opData := 0
    opLo := 0
    opHi := 0
    opCause := .misuse
    caller := .upd }

/-! ### Fault entry -/

/-- The contents of ERR for a cause (R174). -/
def Cause.err : Cause → ErrCode
  | .misuse => .misuse
  | .overflow => .overflow
  | .illegal => .illegal

/-- The cause code of R174. -/
def Cause.code : Cause → Nat
  | .misuse => 1
  | .overflow => 2
  | .illegal => 3

/-- The ERRLOG bit of a cause: `1 << (cause - 1)` (R176). -/
def Cause.logBit (cause : Cause) : BitVec 3 := 1#3 <<< (cause.code - 1)

/-- FLT(cause), fault entry (R176). S, CNT, LEN, BUF, a, b, c, d, i are not written. -/
def raiseFault (cause : Cause) (s : State) : State :=
  { s with
    ERR := cause.err
    ERRLOG := s.ERRLOG ||| cause.logBit
    DIG := []
    PHASE := .fault }

end Sys2Proof.Machine
end

