-- ==== Sys2Proof/Machine/Operands.lean ====
section
/-! DEFINITION. Operand forms and bit-level helpers: byte order (00_scope R10, R12; 20_memory R52, R55), the ROM row at
`i` (R53, R84), rotation (R11) and the four round functions (R123). -/

namespace Sys2Proof.Machine

/-! ### Byte order -/

/-- `le32(b0, b1, b2, b3) = {b3, b2, b1, b0}` (R12). -/
def le32 (b0 b1 b2 b3 : Byte) : Word := b3 ++ b2 ++ b1 ++ b0

/-- The `n` least significant bytes of a value, least significant first (R12, MemWrite). -/
@[irreducible] def bytesLE (n : Nat) {w : Nat} (v : BitVec w) : List Byte :=
  (List.range n).map fun k => v.extractLsb' (8 * k) 8

/-- `S[k]` for k = 0..3 (R12). -/
def Chain.word (h : Chain) (k : Nat) : Word :=
  if k = 0 then h.w0 else if k = 1 then h.w1 else if k = 2 then h.w2 else h.w3

/-! ### Memory operands -/

/-- Byte `addr` of BUF as a read gives it. -/
def bufByte (s : State) (addr : Nat) : Byte := s.BUF.byteAt s.fresh addr

/-- The message word `M[g] = MemRead(BUF, 4*g, 4)`, little-endian (R52). -/
def messageWord (s : State) (g : BitVec 4) : Word :=
  le32 (bufByte s (4 * g.toNat)) (bufByte s (4 * g.toNat + 1)) (bufByte s (4 * g.toNat + 2))
    (bufByte s (4 * g.toNat + 3))

/-- The row `MemRead(ROM, i, 1)` (R53, R124). -/
def romRow (s : State) : BitVec 43 := s.ROM[s.i.toNat]'s.i.isLt

/-! ### Rotation and the round functions -/

/-- `rotl32(x, n)` (R11), defined there for 1 <= n <= 31; by 0 it is a free value (log entry 9). -/
def rotl32 (x : Word) (n : BitVec 5) : Word :=
  if n = 0 then Config.rotlByZero x else (x <<< n.toNat) ||| (x >>> (32 - n.toNat))

/-- F, the selection function of round 0 (R123, R125). -/
def fnF (x y z : Word) : Word := (x &&& y) ||| (~~~x &&& z)

/-- G, the selection function of round 1 (R123, R126). -/
def fnG (x y z : Word) : Word := (x &&& z) ||| (y &&& ~~~z)

/-- H, the parity function of round 2 (R123, R127). -/
def fnH (x y z : Word) : Word := x ^^^ y ^^^ z

/-- I, the function of round 3 (R123, R128). -/
def fnI (x y z : Word) : Word := y ^^^ (x ||| ~~~z)

/-- `fn[fsel]` (R123): 0 = F, 1 = G, 2 = H, 3 = I. -/
def roundFn (fsel : BitVec 2) (x y z : Word) : Word :=
  if fsel = 0 then fnF x y z
  else if fsel = 1 then fnG x y z
  else if fsel = 2 then fnH x y z
  else fnI x y z

end Sys2Proof.Machine
end

