-- ==== Sys2Proof/Machine/Compressor.lean ====
section
/-! DEFINITION. The Compressor (41_compressor.md): CBEG, the four steps, CEND, and Compress as their sequence (R120). -/

namespace Sys2Proof.Machine

/-! ### Shared operations -/

/-- CBEG (R122). -/
def beginCompress (s : State) : State :=
  { s with a := s.S.w0, b := s.S.w1, c := s.S.w2, d := s.S.w3, i := 0 }

/-- `t` of R124: `add32(add32(add32(a, f), m), K)`. -/
def stepSum (f : Word) (g : BitVec 4) (k : Word) (s : State) : Word :=
  s.a + f + messageWord s g + k

/-- The common part of a step (R124) with `f` already computed by the round function. `i` is undef after the step with
i = 63 (R24; log entry 4). -/
def mixStep (f : Word) (g : BitVec 4) (rot : BitVec 5) (k : Word) (s : State) : State :=
  { s with
    a := s.d
    b := s.b + rotl32 (stepSum f g k s) rot
    c := s.b
    d := s.c
    i := if s.i = 63#6 then Config.freeSix s.fresh else s.i + 1
    fresh := if s.i = 63#6 then s.fresh + 1 else s.fresh }

/-- The chaining words plus the working registers, word by word (R129). -/
def feedForward (s : State) : Chain :=
  { w0 := s.S.w0 + s.a, w1 := s.S.w1 + s.b, w2 := s.S.w2 + s.c, w3 := s.S.w3 + s.d }

/-- CEND (R129): the feed-forward; a, b, c, d, i become undef (log entry 4). -/
def endCompress (s : State) : State :=
  { freeWork s with S := feedForward s }

/-- One step with the row that stands in the ROM at `i`: its `fsel` chooses the round function (R85, R120, R124). -/
def romStep (s : State) : State :=
  mixStep (roundFn (rowFsel (romRow s)) s.b s.c s.d) (rowG (romRow s)) (rowRot (romRow s)) (rowK (romRow s)) s

/-- `n` steps in increasing order of `i` (R134). -/
@[irreducible] def romSteps : Nat → State → State
  | 0, s => s
  | n + 1, s => romSteps n (romStep s)

/-- Compress (R120): CBEG, the steps at i = 0 .. 63, CEND. -/
def compress (s : State) : State := endCompress (romSteps 64 (beginCompress s))

/-! ### Meanings -/

/-- CBEG (R122). -/
def execCbeg (s : State) : Host.Outcome State Fault Refusal := .next (beginCompress s)

/-- STEP.F (R125): `f = F(b, c, d)`. -/
def execStepF (g : BitVec 4) (rot : BitVec 5) (k : BitVec 32) (s : State) : Host.Outcome State Fault Refusal :=
  .next (mixStep (fnF s.b s.c s.d) g rot k s)

/-- STEP.G (R126): `f = G(b, c, d)`. -/
def execStepG (g : BitVec 4) (rot : BitVec 5) (k : BitVec 32) (s : State) : Host.Outcome State Fault Refusal :=
  .next (mixStep (fnG s.b s.c s.d) g rot k s)

/-- STEP.H (R127): `f = H(b, c, d)`. -/
def execStepH (g : BitVec 4) (rot : BitVec 5) (k : BitVec 32) (s : State) : Host.Outcome State Fault Refusal :=
  .next (mixStep (fnH s.b s.c s.d) g rot k s)

/-- STEP.I (R128): `f = I(b, c, d)`. -/
def execStepI (g : BitVec 4) (rot : BitVec 5) (k : BitVec 32) (s : State) : Host.Outcome State Fault Refusal :=
  .next (mixStep (fnI s.b s.c s.d) g rot k s)

/-- CEND (R129). -/
def execCend (s : State) : Host.Outcome State Fault Refusal := .next (endCompress s)

end Sys2Proof.Machine
end

