-- ==== Sys2Proof/Machine/Accumulator.lean ====
section
/-! DEFINITION. The Accumulator's micro-ops LDIV and ABSB, and the body of UPD (40_host_commands.md R102, R107, R108). -/

namespace Sys2Proof.Machine

/-- ABSB(x) (R107): store at BUF[LEN], count, advance LEN modulo 64. -/
def absorbByte (x : Byte) (s : State) : State :=
  { s with
    BUF := s.BUF.write s.LEN.toNat x
    CNT := s.CNT + 1
    LEN := s.LEN + 1 }

/-- The body of UPD x after the OVERFLOW test (R102): ABSB(x), and Compress when LEN was 63. The bytes of the compressed
block stay in BUF, stale (R60, U8; log entry 21). -/
def updBody (x : Byte) (s : State) : State :=
  if s.LEN = 63#6 then compress (absorbByte x s) else absorbByte x s

/-- LDIV (R108). -/
def execLdiv (s : State) : Host.Outcome State Fault Refusal := .next (loadInitial s)

/-- ABSB (R107) of the byte the sequencer holds (log entry 10). -/
def execAbsb (s : State) : Host.Outcome State Fault Refusal := .next (absorbByte s.opData s)

end Sys2Proof.Machine
end

