-- ==== Sys2Proof/Machine/Padder.lean ====
section
/-! DEFINITION. The Padder/Finalizer (42_padder_finalizer.md): PAD80, PADZ, PADL, SER, and the sequence FIN runs (R150). -/

namespace Sys2Proof.Machine

/-! ### Shared operations -/

/-- PAD80 (R151): BUF[LEN] <- 0x80. -/
def pad80 (s : State) : State := { s with BUF := s.BUF.write s.LEN.toNat 0x80 }

/-- PADZ(lo, hi) (R152): BUF[lo..hi] <- 0x00. -/
def padZeros (lo hi : Nat) (s : State) : State := { s with BUF := s.BUF.zeroFill lo hi }

/-- The bit count `CNT * 8`, a 64-bit value (R153). -/
def bitCount (s : State) : BitVec 64 := s.CNT * 8

/-- PADL (R153): the bit count at BUF[56..63], least significant byte first. -/
def padLength (s : State) : State := { s with BUF := s.BUF.writeBytes 56 (bytesLE 8 (bitCount s)) }

/-- The bytes SER writes: S[0] first, each word least significant byte first (R155, R55). -/
def serialBytes (h : Chain) : List Byte := bytesLE 4 h.w0 ++ bytesLE 4 h.w1 ++ bytesLE 4 h.w2 ++ bytesLE 4 h.w3

/-- SER (R155): DIG <- the sixteen bytes of S, PHASE <- DONE. -/
def serialise (s : State) : State := { s with DIG := s.DIG.writeBytes 0 (serialBytes s.S), PHASE := .done }

/-- The block of step (a) to (d) when it is the only final block: PAD80, PADZ(L + 1, 55), PADL (R150). -/
def onlyBlock (s : State) : State := padLength (padZeros (s.LEN.toNat + 1) 55 (pad80 s))

/-- The first of two final blocks: PAD80, PADZ(L + 1, 63) (R150). -/
def firstBlock (s : State) : State := padZeros (s.LEN.toNat + 1) 63 (pad80 s)

/-- The second of two final blocks: PADZ(0, 55), PADL (R150). -/
def secondBlock (s : State) : State := padLength (padZeros 0 55 s)

/-- FIN in phase ABSORB (R103, R150): one final block when L <= 55, two otherwise (R154). LEN is undef afterwards (R29,
R103; log entry 5); BUF keeps the last padded block (91 N6, 95 P1; log entry 21). -/
def finBody (s : State) : State :=
  if s.LEN.toNat ≤ 55 then freeLen (serialise (compress (onlyBlock s)))
  else freeLen (serialise (compress (secondBlock (compress (firstBlock s)))))

/-! ### Meanings -/

/-- PAD80 (R151). -/
def execPad80 (s : State) : Host.Outcome State Fault Refusal := .next (pad80 s)

/-- PADZ (R152) of the range the sequencer holds (log entry 10). -/
def execPadz (s : State) : Host.Outcome State Fault Refusal := .next (padZeros s.opLo.toNat s.opHi.toNat s)

/-- PADL (R153). -/
def execPadl (s : State) : Host.Outcome State Fault Refusal := .next (padLength s)

/-- SER (R155). -/
def execSer (s : State) : Host.Outcome State Fault Refusal := .next (serialise s)

end Sys2Proof.Machine
end

