-- ==== Sys2Proof/Machine/Commands.lean ====
section
/-! DEFINITION. The host commands INIT, UPD, FIN and fault entry: the dispatch of 40_host_commands.md R100 by phase, and
the transition each arm makes (R101 to R103, R171 to R177). -/

namespace Sys2Proof.Machine

/-- What R100 makes of an accepted command word. -/
inductive Action where
  /-- No state change (R177). -/
  | discard
  /-- Create a fresh Accumulator (R101): LDIV, with BUF undef afterwards. -/
  | load
  /-- `raise Fault(cause)` (R176). -/
  | raise (cause : Cause)
  /-- `do_UPD(x)` past its OVERFLOW test (R102). -/
  | absorb (x : Byte)
  /-- `do_FIN` (R103). -/
  | finalize
deriving DecidableEq, Repr

/-- R100 for INIT: a fresh Accumulator in every phase (R101). -/
def initAction (_ : State) : Action := .load

/-- R100 for UPD x, with the OVERFLOW test of R102. -/
def updAction (x : Byte) (s : State) : Action :=
  match s.PHASE with
  | .fault => .discard
  | .done => .raise .misuse
  | .absorb => if s.CNT = maxBytes then .raise .overflow else .absorb x

/-- R100 for FIN. -/
def finAction (s : State) : Action :=
  match s.PHASE with
  | .fault => .discard
  | .done => .raise .misuse
  | .absorb => .finalize

/-- R100 for a reserved word (R173, R177). -/
def illegalAction (s : State) : Action :=
  match s.PHASE with
  | .fault => .discard
  | .done => .raise .illegal
  | .absorb => .raise .illegal

/-- R100, at the command level: the whole transition at once (R9). -/
def perform (action : Action) (s : State) : State :=
  match action with
  | .discard => s
  | .load => createAccumulator s
  | .raise cause => raiseFault cause s
  | .absorb x => updBody x s
  | .finalize => finBody s

/-- INIT (R101). -/
def execInit (s : State) : Host.Outcome State Fault Refusal := .next (perform (initAction s) s)

/-- UPD x (R102). -/
def execUpd (data : BitVec 8) (s : State) : Host.Outcome State Fault Refusal := .next (perform (updAction data s) s)

/-- FIN (R103). -/
def execFin (s : State) : Host.Outcome State Fault Refusal := .next (perform (finAction s) s)

/-- FLT (R176) of the cause the sequencer holds (log entry 10). -/
def execFlt (s : State) : Host.Outcome State Fault Refusal := .next (raiseFault s.opCause s)

/-- A reserved command word (R173, R177). -/
def reservedWord (s : State) : Host.Outcome State Fault Refusal := .next (perform (illegalAction s) s)

end Sys2Proof.Machine
end

