-- ==== Sys2Proof/Machine/Dispatch.lean ====
section
/-! DEFINITION. The dispatch of an instruction to its meaning: one arm per constructor. -/

namespace Sys2Proof.Machine

def exec (i : Instr) (s : State) : Host.Outcome State Fault Refusal :=
  match i with
  | .init => Sys2Proof.Machine.execInit s
  | .upd data => Sys2Proof.Machine.execUpd data s
  | .fin => Sys2Proof.Machine.execFin s
  | .stepF g rot k => Sys2Proof.Machine.execStepF g rot k s
  | .stepG g rot k => Sys2Proof.Machine.execStepG g rot k s
  | .stepH g rot k => Sys2Proof.Machine.execStepH g rot k s
  | .stepI g rot k => Sys2Proof.Machine.execStepI g rot k s
  | .ldiv => Sys2Proof.Machine.execLdiv s
  | .absb => Sys2Proof.Machine.execAbsb s
  | .cbeg => Sys2Proof.Machine.execCbeg s
  | .cend => Sys2Proof.Machine.execCend s
  | .pad80 => Sys2Proof.Machine.execPad80 s
  | .padz => Sys2Proof.Machine.execPadz s
  | .padl => Sys2Proof.Machine.execPadl s
  | .ser => Sys2Proof.Machine.execSer s
  | .flt => Sys2Proof.Machine.execFlt s

end Sys2Proof.Machine
end

