-- ==== Sys2Proof/Machine/Flags.lean ====
section
/-! DEFINITION. The core has no condition codes (10_state R26). Its status bits and its ports are functions of the state
(R27, R37); so are the host's pins at the next clock edge. -/

namespace Sys2Proof.Machine

/-- The code of ERR on `err_code_o` (R31, R174). -/
def ErrCode.code : ErrCode → BitVec 2
  | .none => 0
  | .misuse => 1
  | .overflow => 2
  | .illegal => 3

/-- The code of PHASE (R30). -/
def Phase.code : Phase → BitVec 2
  | .absorb => 0b00
  | .done => 0b01
  | .fault => 0b10

/-- `rst_i` at the next clock edge. -/
def rstPin (s : State) : Bool := s.stim.head? == some .rst

/-- `digest_valid = (PHASE == DONE)` (R27). -/
def digestValid (s : State) : Bool := s.PHASE == .done

/-- `err = (PHASE == FAULT)` (R27). -/
def errFlag (s : State) : Bool := s.PHASE == .fault

/-- `cmd_ready_o`: 1 exactly when SEQ = IDLE and rst_i = 0 (R37). -/
def cmdReady (s : State) : Bool := s.SEQ == .idle && !rstPin s

/-- Byte `j` of DIG as a read gives it. -/
def digByte (s : State) (j : Nat) : Byte := s.DIG.byteAt s.fresh j

/-- `digest_o[8j+7:8j] = DIG[j]` for j = 0..15 (R37), as one 128-bit value. -/
def digestBits (s : State) : BitVec 128 :=
  le32 (digByte s 12) (digByte s 13) (digByte s 14) (digByte s 15)
    ++ le32 (digByte s 8) (digByte s 9) (digByte s 10) (digByte s 11)
    ++ le32 (digByte s 4) (digByte s 5) (digByte s 6) (digByte s 7)
    ++ le32 (digByte s 0) (digByte s 1) (digByte s 2) (digByte s 3)

/-- The output ports of R37. -/
structure Ports where
  cmd_ready_o : Bool
  digest_valid_o : Bool
  /-- No value unless `digest_valid_o` = 1 (R207; log entry 8). -/
  digest_o : Option (BitVec 128)
  err_o : Bool
  err_code_o : BitVec 2
  errlog_o : BitVec 3
deriving DecidableEq, Repr

/-- What the host sees (R37, R67). -/
def ports (s : State) : Ports where
  cmd_ready_o := cmdReady s
  digest_valid_o := digestValid s
  digest_o := if digestValid s then some (digestBits s) else none
  err_o := errFlag s
  err_code_o := s.ERR.code
  errlog_o := s.ERRLOG

end Sys2Proof.Machine
end

