-- ==== Sys2Proof/Machine/Sequencer.lean ====
section
/-! DEFINITION. The sequencer: which word is fetched, how a command starts at the micro-op level, and which micro-op
follows which (10_state R25; 40 R100 to R103; 41 R134; 42 R150; log entry 12). -/

namespace Sys2Proof.Machine

/-- The 4-bit code of SEQ (R86). -/
def Seq.code : Seq → BitVec 4
  | .idle => 0x0
  | .ldiv => 0x1
  | .absb => 0x2
  | .cbeg => 0x3
  | .stepF => 0x4
  | .stepG => 0x5
  | .stepH => 0x6
  | .stepI => 0x7
  | .cend => 0x8
  | .pad80 => 0x9
  | .padz => 0xA
  | .padl => 0xB
  | .ser => 0xC
  | .flt => 0xD

/-- Whether SEQ names a step micro-op. -/
def Seq.isStep : Seq → Bool
  | .stepF => true
  | .stepG => true
  | .stepH => true
  | .stepI => true
  | .idle => false
  | .ldiv => false
  | .absb => false
  | .cbeg => false
  | .cend => false
  | .pad80 => false
  | .padz => false
  | .padl => false
  | .ser => false
  | .flt => false

/-- The SEQ code of a step, `{0b01, fsel}` (R86). -/
def stepSeq (row : BitVec 43) : Seq :=
  if rowFsel row = 0 then .stepF
  else if rowFsel row = 1 then .stepG
  else if rowFsel row = 2 then .stepH
  else .stepI

/-- The word the busy sequencer executes: the ROM row at `i` for a step (R85, R120), else the code in SEQ. -/
def fetchCode (s : State) : Code :=
  if s.SEQ.isStep then .row (romRow s) else .seq s.SEQ.code

/-- What R100 makes of a command word. The micro-op instructions are never decoded from a command word; the last arm
answers for them. -/
def commandAction (w : BitVec 10) (s : State) : Action :=
  match decodeCmd w with
  | .instr .init => initAction s
  | .instr (.upd x) => updAction x s
  | .instr .fin => finAction s
  | .instr _ => illegalAction s
  | .rejected _ => illegalAction s

/-- R100 at the micro-op level: SEQ takes the command's first micro-op and the operand fields their values. -/
def startAction (action : Action) (s : State) : State :=
  match action with
  | .discard => s
  | .load => { s with SEQ := .ldiv }
  | .raise cause => { s with SEQ := .flt, opCause := cause }
  | .absorb x => { s with SEQ := .absb, opData := x }
  | .finalize => { s with SEQ := .pad80 }

/-- The successor of the micro-op named by `before.SEQ`, set in the state `after` its effect. With the last micro-op of
INIT the bytes of BUF become undef (R38; log entry 7), with that of FIN LEN does (R29; log entry 5). -/
def advance (before after : State) : State :=
  match before.SEQ with
  | .idle => after
  | .ldiv => { dropBuffer after with SEQ := .idle }
  | .absb => if before.LEN = 63#6 then { after with SEQ := .cbeg, caller := .upd } else { after with SEQ := .idle }
  | .cbeg => { after with SEQ := stepSeq (romRow after) }
  | .stepF | .stepG | .stepH | .stepI =>
    if before.i = 63#6 then { after with SEQ := .cend } else { after with SEQ := stepSeq (romRow after) }
  | .cend =>
    match before.caller with
    | .upd => { after with SEQ := .idle }
    | .finFirst => { after with SEQ := .padz, opLo := 0, opHi := 55, caller := .finLast }
    | .finLast => { after with SEQ := .ser }
  | .pad80 =>
    if before.LEN.toNat ≤ 55 then
      { after with SEQ := .padz, opLo := before.LEN.setWidth 7 + 1, opHi := 55, caller := .finLast }
    else { after with SEQ := .padz, opLo := before.LEN.setWidth 7 + 1, opHi := 63, caller := .finFirst }
  | .padz =>
    match before.caller with
    | .finFirst => { after with SEQ := .cbeg }
    | .upd => { after with SEQ := .padl }
    | .finLast => { after with SEQ := .padl }
  | .padl => { after with SEQ := .cbeg }
  | .ser => { freeLen after with SEQ := .idle }
  | .flt => { after with SEQ := .idle }

/-- The outcome of a micro-op followed by the sequencer's advance. -/
def advanceOutcome (before : State) (o : Host.Outcome State Fault Refusal) : Host.Outcome State Fault Refusal :=
  match o with
  | .next after => .next (advance before after)
  | .fault r => .fault r
  | .refused r => .refused r

/-- The host's stimulus after a clock edge at which the busy core accepts nothing: a quiet edge has passed, an offered
word is held (R205). -/
def heldStim : List HostEvent → List HostEvent
  | .quiet :: rest => rest
  | stim => stim

/-- One micro-op of the busy core: execute the fetched word, then advance. A word that decodes to no instruction (only
IDLE does, and the core is then not busy) changes nothing. -/
def busyStep (s : State) : Host.Outcome State Fault Refusal :=
  match decode (fetchCode s) with
  | .instr i => advanceOutcome s (exec i s)
  | .rejected _ => .next s

/-- Acceptance of a command word by the idle core (R37, R100), at the level the run is at (R9). -/
def acceptWord (w : BitVec 10) (s : State) : Host.Outcome State Fault Refusal :=
  match s.level with
  | .micro => .next (startAction (commandAction w s) s)
  | .command =>
    match decode (.cmd w) with
    | .instr i => exec i s
    | .rejected _ => reservedWord s

/-- The SEQ value of a micro-op that a 4-bit code names (R86): none for IDLE, the step codes and the unused codes. -/
def seqOfCode (c : BitVec 4) : Option Seq :=
  match decodeSeq c with
  | .instr .ldiv => some .ldiv
  | .instr .absb => some .absb
  | .instr .cbeg => some .cbeg
  | .instr .cend => some .cend
  | .instr .pad80 => some .pad80
  | .instr .padz => some .padz
  | .instr .padl => some .padl
  | .instr .ser => some .ser
  | .instr .flt => some .flt
  | .instr _ => none
  | .rejected _ => none

/-- `code` placed where the next step fetches: a command word is offered to the idle core at the command level; a row
stands in the ROM at `i` with SEQ at its step; a micro-op code stands in SEQ. The quiet edge keeps a waiting reset off
the busy core for that step (log entry 13). A code that names no micro-op leaves the state as it is. -/
def placeCode (code : Code) (s : State) : State :=
  match code with
  | .cmd w => { s with SEQ := .idle, level := .command, stim := .cmd w :: s.stim }
  | .row r => { s with SEQ := stepSeq r, ROM := s.ROM.set s.i.toNat r s.i.isLt, stim := .quiet :: s.stim }
  | .seq c =>
    match seqOfCode c with
    | some q => { s with SEQ := q, stim := .quiet :: s.stim }
    | none => s

end Sys2Proof.Machine
end

