-- ==== Sys2Proof/Machine/Step.lean ====
section
/-! DEFINITION. One step of the core: one clock edge that matters. Reset overrides everything (70 R200); a busy core runs
its micro-op; an idle core accepts the offered word or holds its state (R184). -/

namespace Sys2Proof.Machine

/-- One step (10_state R37; 40 R100; 70 R200, R205). -/
def step (s : State) : Host.Outcome State Fault Refusal :=
  match s.stim with
  | .rst :: rest => .next (resetCore { s with stim := rest })
  | stim =>
    if s.SEQ = .idle then
      match stim with
      | .cmd w :: rest => acceptWord w { s with stim := rest }
      | .quiet :: rest => .next { s with stim := rest }
      | _ => .next s
    else busyStep { s with stim := heldStim stim }

/-- `s` with the opcode table's word `w` of `nbits` bits placed where `step` fetches its next instruction (log entry
13). A word that names no code of a format leaves `s` as it is. -/
def State.withFetchWord (s : State) (nbits w : Nat) : State :=
  match codeOfTableWord nbits w with
  | some code => placeCode code s
  | none => s

end Sys2Proof.Machine
end

