-- ==== Sys2Proof/Machine/Instances.lean ====
section
/-! DEFINITION. Several instances of the core: the product of independent copies (60_exceptions R183, 20_memory R72). -/

namespace Sys2Proof.Machine

/-- The instances of a system, by position; "they have no identifiers" (R183). -/
abbrev System := List State

/-- One step of instance `k`; nothing happens where there is no such instance. -/
def stepInstance (k : Nat) (sys : System) : System :=
  match sys[k]? with
  | none => sys
  | some s =>
    match step s with
    | .next t => sys.set k t
    | .fault _ => sys
    | .refused _ => sys

/-- Steps of the instances in the order a schedule names them; an instance without a turn does nothing (R72: "unordered
with respect to each other"). -/
def runSchedule : List Nat → System → System
  | [], sys => sys
  | k :: rest, sys => runSchedule rest (stepInstance k sys)

end Sys2Proof.Machine
end

