-- ==== Sys2Proof/Machine/Pseudo.lean ====
section
/-! DEFINITION. The pseudo-commands of 30_encoding R89 as what the host offers: NEW, UPDATE, FINALIZE. -/

namespace Sys2Proof.Machine

/-- `NEW`: INIT, word 0x000 (R89). -/
def newEvents : List HostEvent := [.cmd 0x000]

/-- `UPDATE b0 b1 ...`: one UPD per byte, in order; no command at all for no byte (R89, R105). -/
def updateEvents (bytes : List Byte) : List HostEvent := bytes.map fun x => .cmd (0b01#2 ++ x)

/-- Several UPDATEs in a row, each followed by a number of quiet clock edges: a way of splitting the input into chunks
(R104). -/
def chunkedEvents (chunks : List (List Byte × Nat)) : List HostEvent :=
  chunks.flatMap fun chunk => updateEvents chunk.1 ++ List.replicate chunk.2 .quiet

/-- `FINALIZE`: FIN, word 0x200 (R89). -/
def finalizeEvents : List HostEvent := [.cmd 0x200]

/-- The program of R109 for a message. -/
def digestEvents (msg : List Byte) : List HostEvent := newEvents ++ updateEvents msg ++ finalizeEvents

end Sys2Proof.Machine
end

