-- ==== Sys2Proof/Machine/Reference.lean ====
section
/-! DEFINITION. The core as functions, without state: Compress in the function form of R120, with the tables of R130 (its
column K), R131 and R132, and the whole function Digest(m) of R109. The machine never calls them; claims compare it with
them. -/

namespace Sys2Proof.Machine

/-! ### Tables -/

/-- The column K of R130, rows 0 to 15. -/
def refKRound0 : List Word :=
  [0xD76AA478, 0xE8C7B756, 0x242070DB, 0xC1BDCEEE,
   0xF57C0FAF, 0x4787C62A, 0xA8304613, 0xFD469501,
   0x698098D8, 0x8B44F7AF, 0xFFFF5BB1, 0x895CD7BE,
   0x6B901122, 0xFD987193, 0xA679438E, 0x49B40821]

/-- The column K of R130, rows 16 to 31. -/
def refKRound1 : List Word :=
  [0xF61E2562, 0xC040B340, 0x265E5A51, 0xE9B6C7AA,
   0xD62F105D, 0x02441453, 0xD8A1E681, 0xE7D3FBC8,
   0x21E1CDE6, 0xC33707D6, 0xF4D50D87, 0x455A14ED,
   0xA9E3E905, 0xFCEFA3F8, 0x676F02D9, 0x8D2A4C8A]

/-- The column K of R130, rows 32 to 47. -/
def refKRound2 : List Word :=
  [0xFFFA3942, 0x8771F681, 0x6D9D6122, 0xFDE5380C,
   0xA4BEEA44, 0x4BDECFA9, 0xF6BB4B60, 0xBEBFBC70,
   0x289B7EC6, 0xEAA127FA, 0xD4EF3085, 0x04881D05,
   0xD9D4D039, 0xE6DB99E5, 0x1FA27CF8, 0xC4AC5665]

/-- The column K of R130, rows 48 to 63. -/
def refKRound3 : List Word :=
  [0xF4292244, 0x432AFF97, 0xAB9423A7, 0xFC93A039,
   0x655B59C3, 0x8F0CCC92, 0xFFEFF47D, 0x85845DD1,
   0x6FA87E4F, 0xFE2CE6E0, 0xA3014314, 0x4E0811A1,
   0xF7537E82, 0xBD3AF235, 0x2AD7D2BB, 0xEB86D391]

/-- `K[i]` (R130). -/
def refK (i : Nat) : Word := (refKRound0 ++ refKRound1 ++ refKRound2 ++ refKRound3).getD i 0

/-- `s[i]` (R131): it depends on the round `i / 16` and on `i mod 4`. -/
def refRot (i : Nat) : Nat :=
  if i / 16 = 0 then [7, 12, 17, 22].getD (i % 4) 0
  else if i / 16 = 1 then [5, 9, 14, 20].getD (i % 4) 0
  else if i / 16 = 2 then [4, 11, 16, 23].getD (i % 4) 0
  else [6, 10, 15, 21].getD (i % 4) 0

/-- `gidx(i)` (R132). -/
def refIndex (i : Nat) : Nat :=
  if i / 16 = 0 then i % 16
  else if i / 16 = 1 then (5 * i + 1) % 16
  else if i / 16 = 2 then (3 * i + 5) % 16
  else 7 * i % 16

/-- `fn[r]` (R123). -/
def refFn (r : Nat) (x y z : Word) : Word :=
  if r = 0 then fnF x y z else if r = 1 then fnG x y z else if r = 2 then fnH x y z else fnI x y z

/-! ### Compress -/

/-- `M[g]` of a block (R120, R52). -/
def blockWord (block : List Byte) (g : Nat) : Word :=
  le32 (block.getD (4 * g) 0) (block.getD (4 * g + 1) 0) (block.getD (4 * g + 2) 0) (block.getD (4 * g + 3) 0)

/-- The loop body of R120 at index `i`, on (a, b, c, d). -/
def refStep (block : List Byte) (v : Chain) (i : Nat) : Chain :=
  { w0 := v.w3
    w1 := v.w1 + (v.w0 + refFn (i / 16) v.w1 v.w2 v.w3 + blockWord block (refIndex i) + refK i).rotateLeft (refRot i)
    w2 := v.w1
    w3 := v.w2 }

/-- (a, b, c, d) after the loop of R120. -/
def refLoop (block : List Byte) (h : Chain) : Chain := (List.range 64).foldl (refStep block) h

/-- `Compress(H, Bk)` (R120). -/
def compressFn (h : Chain) (block : List Byte) : Chain :=
  { w0 := h.w0 + (refLoop block h).w0
    w1 := h.w1 + (refLoop block h).w1
    w2 := h.w2 + (refLoop block h).w2
    w3 := h.w3 + (refLoop block h).w3 }

/-! ### Digest -/

/-- The number of zero bytes `z = (55 - n) mod 64` (R109, R157). -/
def zeroCount (n : Nat) : Nat := (119 - n % 64) % 64

/-- The padded message `p` (R109). -/
def padded (msg : List Byte) : List Byte :=
  msg ++ [0x80] ++ List.replicate (zeroCount msg.length) 0 ++ bytesLE 8 (BitVec.ofNat 64 (8 * msg.length))

/-- Compress over `k` blocks of `p`, in order (R109). -/
def hashBlocks : Nat → List Byte → Chain → Chain
  | 0, _, h => h
  | k + 1, p, h => hashBlocks k (p.drop 64) (compressFn h (p.take 64))

/-- `Digest(m)` (R109). -/
def digest (msg : List Byte) : List Byte :=
  serialBytes (hashBlocks ((padded msg).length / 64) (padded msg) iv)

/-- A byte list as one number, the first byte most significant: the reading of the 32 hex digits of R14. -/
def hexNumber (bytes : List Byte) : Nat := bytes.foldl (fun acc x => acc * 256 + x.toNat) 0

end Sys2Proof.Machine
end

