-- ==== Sys2Proof/Safety.lean ====
section
/-! DEFINITION. The terms claims use: runs, the invariant of every reachable state, command boundaries, frames, and what
the host can tell two states apart by. -/

namespace Sys2Proof.Machine

/-! ### Runs -/

/-- `n` steps lead from `s` to `t`, none of them stopping. -/
def Runs : Nat → State → State → Prop
  | 0, s, t => s = t
  | n + 1, s, t => ∃ u, step s = .next u ∧ Runs n u t

/-! ### The invariant -/

/-- Every byte of `m` below `bound` is listed. -/
def Memory.ListedBelow (m : Memory) (bound : Nat) : Prop := ∀ j, j < bound → (m.read j).isSome = true

/-- SEQ stands inside a compression: at CBEG, a step or CEND. -/
def Seq.compressing : Seq → Bool
  | .cbeg => true
  | .cend => true
  | q => q.isStep

/-- SEQ stands at a micro-op that only an absorbing Accumulator runs: everything but IDLE, LDIV and FLT. -/
def Seq.absorbing : Seq → Bool
  | .idle => false
  | .ldiv => false
  | .flt => false
  | .absb => true
  | .cbeg => true
  | .stepF => true
  | .stepG => true
  | .stepH => true
  | .stepI => true
  | .cend => true
  | .pad80 => true
  | .padz => true
  | .padl => true
  | .ser => true

/-- What holds at reset and after every step. -/
structure Inv (s : State) : Prop where
  /-- The ROM holds the rows of R130 (R53, R204). -/
  romFixed : s.ROM = romTable
  /-- BUF is canonical, addresses 0..63 (R51). -/
  bufCanonical : s.BUF.wf = true ∧ s.BUF.within 64 = true
  /-- DIG is canonical, addresses 0..15 (R54). -/
  digCanonical : s.DIG.wf = true ∧ s.DIG.within 16 = true
  /-- `0 <= CNT <= 2^61 - 1` (R28, R172). -/
  countInRange : s.CNT.toNat ≤ 2 ^ 61 - 1
  /-- In phase ABSORB, `LEN = CNT mod 64` (R29). -/
  lenTracksCount : s.PHASE = .absorb → s.LEN.toNat = s.CNT.toNat % 64
  /-- `ERR != NONE` if and only if `PHASE == FAULT` (R31). -/
  errIffFault : s.ERR ≠ .none ↔ s.PHASE = .fault
  /-- The current cause is logged (R176, R32). -/
  errLogged : ∀ cause : Cause, s.ERR = cause.err → s.ERRLOG &&& cause.logBit = cause.logBit
  /-- DIG holds a value when PHASE = DONE (R34). -/
  digestWhenDone : s.PHASE = .done → s.DIG.ListedBelow 16
  /-- DIG holds no value otherwise (R34). -/
  noDigestElse : s.PHASE ≠ .done → s.DIG = []
  /-- The pending bytes BUF[0..LEN-1] are listed (R60, R66). -/
  pendingListed : s.PHASE = .absorb → s.BUF.ListedBelow s.LEN.toNat
  /-- The micro-ops of UPD and FIN run in phase ABSORB only (R100). -/
  absorbPhase : s.SEQ.absorbing = true → s.PHASE = .absorb
  /-- An ABSB that runs was below MAX_BYTES (R102, R133). -/
  absbBelowMax : s.SEQ = .absb → s.CNT.toNat < 2 ^ 61 - 1
  /-- PADZ fills up from the last byte written to 55, or to 63 in the first of two blocks (R150). -/
  padzRange : s.SEQ = .padz → s.BUF.ListedBelow s.opLo.toNat ∧ s.opLo.toNat ≤ 64 ∧
    s.opHi = (if s.caller = .finFirst then 63 else 55)
  /-- Before PADL, BUF[0..55] is written (R150). -/
  padlFilled : s.SEQ = .padl → s.BUF.ListedBelow 56
  /-- During a compression every byte of BUF is written (R66). -/
  blockWritten : s.SEQ.compressing = true → s.BUF.ListedBelow 64

/-! ### Command boundaries -/

/-- A command boundary of a run at the command level: the core is idle. -/
def AtBoundary (s : State) : Prop := s.SEQ = .idle ∧ s.level = .command

/-- The next thing the host does is not a reset and not a quiet edge: it has stopped, or holds a command word. -/
def HostWaits (stim : List HostEvent) : Prop := stim = [] ∨ ∃ w rest, stim = .cmd w :: rest

/-- The state without the model's own operand fields and level, as it is compared at command boundaries (R9). -/
def forgetMicro (s : State) : State :=
  { s with opData := 0, opLo := 0, opHi := 0, opCause := .misuse, caller := .upd, level := .command }

/-! ### Frames -/

/-- PHASE, ERR and ERRLOG are unchanged. -/
def SameStatus (s t : State) : Prop := t.PHASE = s.PHASE ∧ t.ERR = s.ERR ∧ t.ERRLOG = s.ERRLOG

/-- CNT and LEN are unchanged. -/
def SameCounts (s t : State) : Prop := t.CNT = s.CNT ∧ t.LEN = s.LEN

/-- a, b, c, d and i are unchanged. -/
def SameWork (s t : State) : Prop := t.a = s.a ∧ t.b = s.b ∧ t.c = s.c ∧ t.d = s.d ∧ t.i = s.i

/-- SEQ, the operand fields, the level and the host's stimulus are unchanged. -/
def SameSequencer (s t : State) : Prop :=
  t.SEQ = s.SEQ ∧ t.opData = s.opData ∧ t.opLo = s.opLo ∧ t.opHi = s.opHi ∧ t.opCause = s.opCause ∧
    t.caller = s.caller ∧ t.level = s.level ∧ t.stim = s.stim

/-- Every byte of `m'` reads as in `m`. -/
def SameBytes (m m' : Memory) : Prop := ∀ addr, m'.read addr = m.read addr

/-- Every byte of `m'` outside `lo .. hi` (inclusive) reads as in `m`. -/
def SameBytesOutside (lo hi : Nat) (m m' : Memory) : Prop :=
  ∀ addr, ¬(lo ≤ addr ∧ addr ≤ hi) → m'.read addr = m.read addr

/-- DIG holds the sixteen bytes of `h`: DIG[4k + j] = h[k][8j+7:8j] (R155). -/
def HoldsSerialised (dig : Memory) (h : Chain) : Prop :=
  ∀ k j, k < 4 → j < 4 → dig.read (4 * k + j) = some ((h.word k).extractLsb' (8 * j) 8)

/-! ### What the host can see -/

/-- Two states at a command boundary that differ at most in scratch: the working registers, the model's own fields,
stale bytes of BUF, and, outside phase ABSORB, the finished computation's S, CNT and LEN (R36, R106, U8, U10, U11). -/
structure SameForHost (s t : State) : Prop where
  left : AtBoundary s
  right : AtBoundary t
  rom : t.ROM = s.ROM
  phase : t.PHASE = s.PHASE
  err : t.ERR = s.ERR
  errlog : t.ERRLOG = s.ERRLOG
  dig : t.DIG = s.DIG
  stim : t.stim = s.stim
  digest : s.PHASE = .done → s.DIG.ListedBelow 16
  computation : s.PHASE = .absorb → t.S = s.S ∧ t.CNT = s.CNT ∧ t.LEN = s.LEN
  pending : s.PHASE = .absorb → ∀ j, j < s.LEN.toNat → (s.BUF.read j).isSome = true ∧ t.BUF.read j = s.BUF.read j

end Sys2Proof.Machine
end

