-- ==== Sys2Proof/Certificates/Slice0/Obligations.lean ====
section
/-! DEFINITION. The statements for the provers. Each docstring names the rules of spec/ it formalises; a clause that rests
on the model's own choice names its log entry. The frame SameSequencer and the hypotheses on `stim`, `level` and the operand
fields speak of the model's own fields (log entries 1, 2, 10). -/

open Sys2Proof Sys2Proof.Machine

/-! ### Encoding -/

/-- Decoding and encoding are inverse to each other on every word of every format: no bit of an encoding is dropped and
no two words mean the same instruction (R80, R81, R84 to R87). -/
def Obligations.DecodeInvertsEncode : Prop :=
  ∀ (code : Code) (i : Instr), decode code = .instr i ↔ encode i = code

/-- R81: the opcode map of format CMD, range by range, with its counts; it depends on the word alone. -/
def Obligations.CommandMapIsTheTable : Prop :=
  (∀ n, n < 1024 → decode (.cmd (BitVec.ofNat 10 n)) =
    if n = 0x000 then .instr .init
    else if 0x100 ≤ n ∧ n ≤ 0x1FF then .instr (.upd (BitVec.ofNat 8 (n - 0x100)))
    else if n = 0x200 then .instr .fin
    else .rejected (.reservedCommand (BitVec.ofNat 10 n))) ∧
  ((List.range 1024).filter fun n => (decode (.cmd (BitVec.ofNat 10 n))).toOption.isNone).length = 766

/-- R84, R85: a ROM row is `{fsel, g, s, K}` from the top bit down, and `fsel` alone selects the step; a rotation amount
of 0 occurs in no row of the ROM. -/
def Obligations.RowsDecodeByFselAlone : Prop :=
  (∀ (g : BitVec 4) (rot : BitVec 5) (k : BitVec 32),
    decode (.row (BitVec.ofNat 43 (0 * 2 ^ 41 + g.toNat * 2 ^ 37 + rot.toNat * 2 ^ 32 + k.toNat))) =
      .instr (.stepF g rot k) ∧
    decode (.row (BitVec.ofNat 43 (1 * 2 ^ 41 + g.toNat * 2 ^ 37 + rot.toNat * 2 ^ 32 + k.toNat))) =
      .instr (.stepG g rot k) ∧
    decode (.row (BitVec.ofNat 43 (2 * 2 ^ 41 + g.toNat * 2 ^ 37 + rot.toNat * 2 ^ 32 + k.toNat))) =
      .instr (.stepH g rot k) ∧
    decode (.row (BitVec.ofNat 43 (3 * 2 ^ 41 + g.toNat * 2 ^ 37 + rot.toNat * 2 ^ 32 + k.toNat))) =
      .instr (.stepI g rot k)) ∧
  ∀ n (h : n < 64), rowRot romTable[n] ≠ 0

/-- Words written out from 95_test_vectors 6.1, 6.2 and from R86 decode to what they stand for, through the opcode
table's numbering; that its widths 4, 10 and 43 are 8, 16 and 48 bits there is the model's choice (log entry 19).
A sanity statement. -/
def Obligations.WrittenWordsDecode : Prop :=
  decodeTableWord 16 0b0000000000 = some .init ∧
  decodeTableWord 16 0b0101100001 = some (.upd 0x61) ∧
  decodeTableWord 16 0b1000000000 = some .fin ∧
  decodeTableWord 16 0x3FF = none ∧
  decodeTableWord 48 0x007D76AA478 = some (.stepF 0 7 0xD76AA478) ∧
  decodeTableWord 48 0x225F61E2562 = some (.stepG 1 5 0xF61E2562) ∧
  decodeTableWord 48 0x4A4FFFA3942 = some (.stepH 5 4 0xFFFA3942) ∧
  decodeTableWord 48 0x735EB86D391 = some (.stepI 9 21 0xEB86D391) ∧
  decodeTableWord 8 0b0010 = some .absb ∧
  decodeTableWord 8 0b1101 = some .flt ∧
  decodeTableWord 8 0b0000 = none

/-- The ROM of R130 agrees row by row with the rules for `fsel` (R84), `g` (R132) and `s` (R131) and with the column K;
each round uses each message word once; the sum and the exclusive or of the constants are those of 95_test_vectors 6.2. -/
def Obligations.RomRowsFollowTheStepRules : Prop :=
  (∀ n (h : n < 64), (rowFsel romTable[n]).toNat = n / 16 ∧ (rowG romTable[n]).toNat = refIndex n ∧
    (rowRot romTable[n]).toNat = refRot n ∧ rowK romTable[n] = refK n) ∧
  (∀ r, r < 4 → ((List.range 16).map fun j => refIndex (16 * r + j)).Nodup) ∧
  (∀ n, n < 64 → refIndex n < 16 ∧ 4 ≤ refRot n ∧ refRot n ≤ 23) ∧
  (List.range 64).foldl (fun acc n => acc + refK n) 0 = 0x27F3A0BC#32 ∧
  (List.range 64).foldl (fun acc n => acc ^^^ refK n) 0 = 0x10E6CC5A#32

/-! ### Reset -/

/-- R38, column "after reset", with the ports. Nothing is said of a, b, c, d, i, which are undef there. -/
def Obligations.ResetStateIsTheTable : Prop :=
  State.reset.S.w0 = 0x67452301 ∧ State.reset.S.w1 = 0xEFCDAB89 ∧ State.reset.S.w2 = 0x98BADCFE ∧
  State.reset.S.w3 = 0x10325476 ∧ State.reset.CNT = 0 ∧ State.reset.LEN = 0 ∧
  (∀ addr, State.reset.BUF.read addr = none) ∧ (∀ addr, State.reset.DIG.read addr = none) ∧
  State.reset.PHASE = .absorb ∧ State.reset.ERR = .none ∧ State.reset.ERRLOG = 0b000 ∧ State.reset.SEQ = .idle ∧
  State.reset.ROM = romTable ∧
  ports State.reset =
    { cmd_ready_o := true, digest_valid_o := false, digest_o := none, err_o := false, err_code_o := 0, errlog_o := 0 }

/-- R200, R38: a clock edge with rst_i = 1 creates an Accumulator, from every state, busy or not, whatever else the host
offers; no command is accepted at it. BUF lists nothing afterwards (log entry 14); `level` and `stim` are the model's own
fields (log entries 1, 2). -/
def Obligations.ResetEdgeCreatesAnAccumulator : Prop :=
  ∀ (s : State) (rest : List HostEvent), s.stim = .rst :: rest →
    cmdReady s = false ∧
    ∃ t, step s = .next t ∧ t.S = iv ∧ t.CNT = 0 ∧ t.LEN = 0 ∧ t.PHASE = .absorb ∧ t.ERR = .none ∧ t.ERRLOG = 0 ∧
      t.SEQ = .idle ∧ t.ROM = s.ROM ∧ (∀ addr, t.BUF.read addr = none) ∧ (∀ addr, t.DIG.read addr = none) ∧
      t.level = s.level ∧ t.stim = rest

/-- R202: reset during a command leaves no trace of it. Two states that share only the ROM, the level, what the host
does and the number of the next free value are led to one state by a reset, wherever each stood in a command. That BUF
is emptied and the operand fields return to their reset values is log entry 14 and 10; a, b, c, d, i are undef afterwards
and equal because equal counters draw equal free values, the model's choice (log entry 11). -/
def Obligations.ResetErasesTheAbandonedCommand : Prop :=
  ∀ s s' : State, s.stim.head? = some .rst → s'.stim = s.stim → s'.ROM = s.ROM → s'.level = s.level →
    s'.fresh = s.fresh → step s' = step s

/-! ### One step -/

/-- At a command boundary, in every phase, cmd_ready_o is 1 when a word is offered, and a step with an offered word that
decodes to `i` is `exec i` on the state from which the word is taken (R37, R100, R9). `level` and `stim` are the model's
own fields (log entries 1, 2). -/
def Obligations.CommandStepRunsTheDecodedInstruction : Prop :=
  ∀ (s : State) (w : BitVec 10) (rest : List HostEvent) (i : Instr), AtBoundary s → s.stim = .cmd w :: rest →
    decode (.cmd w) = .instr i → cmdReady s = true ∧ step s = exec i { s with stim := rest }

/-- A busy core executes the micro-op that SEQ names, or the ROM row at `i` for a step, and then the sequencer advances
(R25, R85, R120). A quiet edge passes; an offered word stays offered (R205; log entry 2). The order of the micro-ops is
log entry 12; where SEQ and the row's fsel differ, the row decides (log entry 16). -/
def Obligations.BusyStepRunsTheFetchedMicroOp : Prop :=
  ∀ (s : State) (i : Instr), s.SEQ ≠ .idle → s.stim.head? ≠ some .rst → decode (fetchCode s) = .instr i →
    ∃ t, exec i { s with stim := heldStim s.stim } = .next t ∧
      step s = .next (advance { s with stim := heldStim s.stim } t)

/-- R184, R37: between commands the core holds its state: with nothing offered, nothing changes. -/
def Obligations.IdleCoreHoldsItsState : Prop :=
  ∀ s : State, s.SEQ = .idle → (s.stim = [] → step s = .next s) ∧
    ∀ rest, s.stim = .quiet :: rest → step s = .next { s with stim := rest }

/-- R205: a word offered while the core is busy is not accepted and has no effect: it stays offered, and the step is the
step the core makes when nothing is offered. The equality of the two next states includes undef registers, equal because
equal counters draw equal free values, the model's choice (log entry 11). -/
def Obligations.OfferWhileBusyHasNoEffect : Prop :=
  ∀ (s : State) (w : BitVec 10) (rest : List HostEvent), s.SEQ ≠ .idle → s.stim = .cmd w :: rest →
    cmdReady s = false ∧
    ∃ t, step s = .next t ∧ t.stim = s.stim ∧ step { s with stim := [] } = .next { t with stim := [] }

/-- No step of the model stops: every state has a next state (R135, R170: the Compressor always succeeds, no misuse stops
the core). -/
def Obligations.EveryStepAnswersNext : Prop := ∀ s : State, ∃ t, step s = .next t

/-- R211: every command completes after finitely many micro-ops: from every state the core is idle again within 137
steps. The number is the length of FIN's longest sequence at one micro-op per step, the model's order (log entry 12). -/
def Obligations.BusyCoreBecomesReady : Prop := ∀ s : State, ∃ n t, n ≤ 137 ∧ Runs n s t ∧ t.SEQ = .idle

/-! ### Host commands -/

/-- R101, R38: INIT in every phase, whatever the state: a fresh Accumulator. No byte of BUF has a value afterwards (R38;
log entry 7), and the digest port has none (R207). -/
def Obligations.InitCreatesAnAccumulatorInEveryPhase : Prop :=
  ∀ s : State, ∃ t, exec .init s = .next t ∧ t.S = iv ∧ t.CNT = 0 ∧ t.LEN = 0 ∧ t.PHASE = .absorb ∧ t.ERR = .none ∧
    (∀ addr, t.DIG.read addr = none) ∧ digestValid t = false ∧ (ports t).digest_o = none ∧ errFlag t = false ∧
    t.ERRLOG = s.ERRLOG ∧ (∀ addr, t.BUF.read addr = none) ∧ SameWork s t ∧ t.ROM = s.ROM ∧ SameSequencer s t

/-- R102: UPD x that does not fill the buffer stores one byte, counts it, and changes nothing else. That the stale bytes of
BUF above LEN stay too is log entry 21. -/
def Obligations.UpdStoresOneByte : Prop :=
  ∀ (x : Byte) (s : State), s.PHASE = .absorb → s.CNT.toNat < 2 ^ 61 - 1 → s.LEN ≠ 63#6 →
    ∃ t, exec (.upd x) s = .next t ∧ t.BUF.read s.LEN.toNat = some x ∧
      SameBytesOutside s.LEN.toNat s.LEN.toNat s.BUF t.BUF ∧ t.CNT.toNat = s.CNT.toNat + 1 ∧
      t.LEN.toNat = s.LEN.toNat + 1 ∧ t.S = s.S ∧ SameWork s t ∧ SameBytes s.DIG t.DIG ∧ SameStatus s t ∧
      t.ROM = s.ROM ∧ SameSequencer s t

/-- R102, R120: UPD x that fills the buffer stores the 64th byte and compresses the block once: S becomes
Compress(S, BUF[0..62] ++ [x]). Nothing is said of the scratch registers a, b, c, d, i. That the bytes of the block stay in
BUF is log entry 21. -/
def Obligations.UpdCompressesTheFilledBlock : Prop :=
  ∀ (x : Byte) (s : State), s.PHASE = .absorb → s.CNT.toNat < 2 ^ 61 - 1 → s.LEN = 63#6 → s.ROM = romTable →
    ∃ t, exec (.upd x) s = .next t ∧ t.S = compressFn s.S ((List.range 63).map (bufByte s) ++ [x]) ∧ t.LEN = 0 ∧
      t.CNT.toNat = s.CNT.toNat + 1 ∧ t.BUF.read 63 = some x ∧ SameBytesOutside 63 63 s.BUF t.BUF ∧
      SameBytes s.DIG t.DIG ∧ SameStatus s t ∧ t.ROM = s.ROM ∧ SameSequencer s t

/-- What the output ports show of a fault once it is raised (R27, R31, R37, R174, R207): err_o = 1, the cause code on
err_code_o, ERRLOG on errlog_o, and no digest. -/
def ShowsFault (code : BitVec 2) (t : State) : Prop :=
  (ports t).err_o = true ∧ (ports t).err_code_o = code ∧ (ports t).errlog_o = t.ERRLOG ∧
    (ports t).digest_valid_o = false ∧ (ports t).digest_o = none

/-- The fault of R172: UPD at CNT = MAX_BYTES = 2^61 - 1 raises OVERFLOW; the byte is neither stored nor counted; the
ports show cause code 2. -/
def Obligations.UpdAtMaxBytesOverflows : Prop :=
  ∀ (x : Byte) (s : State), s.PHASE = .absorb → s.CNT.toNat = 2 ^ 61 - 1 →
    ∃ t, exec (.upd x) s = .next t ∧ t.ERR = .overflow ∧ (∀ n : Fin 3, t.ERRLOG[n] = (s.ERRLOG[n] || n == 1)) ∧
      t.PHASE = .fault ∧ ShowsFault 2 t ∧ (∀ addr, t.DIG.read addr = none) ∧ t.S = s.S ∧ SameCounts s t ∧
      SameBytes s.BUF t.BUF ∧ SameWork s t ∧ t.ROM = s.ROM ∧ SameSequencer s t

/-- R171: UPD with any byte, or FIN, in phase DONE raises MISUSE and withdraws the digest; nothing else is written; the
ports show cause code 1. -/
def Obligations.UpdAndFinAfterFinAreMisuse : Prop :=
  ∀ (s : State) (i : Instr), s.PHASE = .done → (i = .fin ∨ ∃ x, i = .upd x) →
    ∃ t, exec i s = .next t ∧ t.ERR = .misuse ∧ (∀ n : Fin 3, t.ERRLOG[n] = (s.ERRLOG[n] || n == 0)) ∧
      t.PHASE = .fault ∧ ShowsFault 1 t ∧ (∀ addr, t.DIG.read addr = none) ∧ t.S = s.S ∧ SameCounts s t ∧
      SameBytes s.BUF t.BUF ∧ SameWork s t ∧ t.ROM = s.ROM ∧ SameSequencer s t

/-- R173: each of the reserved command words, offered to the idle core in phase ABSORB or DONE, finds it ready and raises
ILLEGAL; nothing else is written, and the word is taken; the ports show cause code 3. -/
def Obligations.ReservedWordsAreIllegal : Prop :=
  ∀ (s : State) (w : BitVec 10) (rest : List HostEvent), AtBoundary s → s.PHASE ≠ .fault → s.stim = .cmd w :: rest →
    (∀ i, decode (.cmd w) ≠ .instr i) →
    cmdReady s = true ∧ ∃ t, step s = .next t ∧ t.ERR = .illegal ∧ (∀ n : Fin 3, t.ERRLOG[n] = (s.ERRLOG[n] || n == 2)) ∧
      t.PHASE = .fault ∧ ShowsFault 3 t ∧ (∀ addr, t.DIG.read addr = none) ∧ t.S = s.S ∧ SameCounts s t ∧
      SameBytes s.BUF t.BUF ∧ SameWork s t ∧ t.ROM = s.ROM ∧ t.stim = rest ∧ SameSequencer { s with stim := rest } t

/-- R177: in phase FAULT the core is ready and discards every word that is not INIT, at either level: the word is taken
and no state changes. -/
def Obligations.FaultPhaseDiscardsEveryWordButInit : Prop :=
  ∀ (s : State) (w : BitVec 10) (rest : List HostEvent), s.SEQ = .idle → s.PHASE = .fault → s.stim = .cmd w :: rest →
    w ≠ 0x000 →
    cmdReady s = true ∧ errFlag s = true ∧ digestValid s = false ∧ (ports s).digest_o = none ∧
      step s = .next { s with stim := rest }

/-- R103, R150, R154: FIN with LEN <= 55 compresses the one final block (pending bytes, 0x80, zeros, length field) and
serialises. Nothing is said of LEN and the scratch registers, which are undef afterwards. -/
def Obligations.FinWithOneFinalBlock : Prop :=
  ∀ s : State, s.PHASE = .absorb → s.LEN.toNat ≤ 55 → s.ROM = romTable →
    ∃ t, exec .fin s = .next t ∧
      t.S = compressFn s.S ((List.range s.LEN.toNat).map (bufByte s) ++ [0x80] ++
        List.replicate (55 - s.LEN.toNat) 0 ++ bytesLE 8 (s.CNT * 8)) ∧
      HoldsSerialised t.DIG t.S ∧ t.PHASE = .done ∧ digestValid t = true ∧ t.BUF.read s.LEN.toNat = some 0x80 ∧
      (∀ j, s.LEN.toNat < j → j ≤ 55 → t.BUF.read j = some 0) ∧
      (∀ k, k < 8 → t.BUF.read (56 + k) = some ((s.CNT * 8).extractLsb' (8 * k) 8)) ∧
      SameBytesOutside s.LEN.toNat 63 s.BUF t.BUF ∧ SameBytesOutside 0 15 s.DIG t.DIG ∧ t.CNT = s.CNT ∧
      t.ERR = s.ERR ∧ t.ERRLOG = s.ERRLOG ∧ t.ROM = s.ROM ∧ SameSequencer s t

/-- R103, R150, R154: FIN with LEN >= 56 compresses two final blocks, in order, and serialises. -/
def Obligations.FinWithTwoFinalBlocks : Prop :=
  ∀ s : State, s.PHASE = .absorb → 56 ≤ s.LEN.toNat → s.ROM = romTable →
    ∃ t, exec .fin s = .next t ∧
      t.S = compressFn
        (compressFn s.S ((List.range s.LEN.toNat).map (bufByte s) ++ [0x80] ++ List.replicate (63 - s.LEN.toNat) 0))
        (List.replicate 56 0 ++ bytesLE 8 (s.CNT * 8)) ∧
      HoldsSerialised t.DIG t.S ∧ t.PHASE = .done ∧ digestValid t = true ∧
      (∀ j, j ≤ 55 → t.BUF.read j = some 0) ∧
      (∀ k, k < 8 → t.BUF.read (56 + k) = some ((s.CNT * 8).extractLsb' (8 * k) 8)) ∧
      SameBytesOutside 0 63 s.BUF t.BUF ∧ SameBytesOutside 0 15 s.DIG t.DIG ∧ t.CNT = s.CNT ∧
      t.ERR = s.ERR ∧ t.ERRLOG = s.ERRLOG ∧ t.ROM = s.ROM ∧ SameSequencer s t

/-! ### Micro-ops of the Accumulator and fault entry -/

/-- R108: LDIV, code 0x1. -/
def Obligations.LdivLoadsTheInitialValues : Prop :=
  decode (.seq 0x1) = .instr .ldiv ∧
  ∀ s : State, ∃ t, exec .ldiv s = .next t ∧ t.S.w0 = 0x67452301 ∧ t.S.w1 = 0xEFCDAB89 ∧ t.S.w2 = 0x98BADCFE ∧
    t.S.w3 = 0x10325476 ∧ t.CNT = 0 ∧ t.LEN = 0 ∧ (∀ addr, t.DIG.read addr = none) ∧ t.ERR = .none ∧
    t.PHASE = .absorb ∧ SameBytes s.BUF t.BUF ∧ SameWork s t ∧ t.ERRLOG = s.ERRLOG ∧ t.ROM = s.ROM ∧
    SameSequencer s t

/-- R107: ABSB(x), code 0x2, on the byte x the sequencer holds (log entry 10): BUF[LEN] <- x, CNT + 1 modulo 2^64,
LEN + 1 modulo 64. -/
def Obligations.AbsbStoresCountsAndAdvances : Prop :=
  decode (.seq 0x2) = .instr .absb ∧
  ∀ s : State, ∃ t, exec .absb s = .next t ∧ t.BUF.read s.LEN.toNat = some s.opData ∧
    SameBytesOutside s.LEN.toNat s.LEN.toNat s.BUF t.BUF ∧ t.CNT.toNat = (s.CNT.toNat + 1) % 2 ^ 64 ∧
    t.LEN.toNat = (s.LEN.toNat + 1) % 64 ∧ t.S = s.S ∧ SameWork s t ∧ SameBytes s.DIG t.DIG ∧ SameStatus s t ∧
    t.ROM = s.ROM ∧ SameSequencer s t

/-- R176: FLT(cause), code 0xD, on the cause the sequencer holds (log entry 10): ERR, the cause's ERRLOG bit, DIG and
PHASE are written, and nothing else; the ports show the cause. -/
def Obligations.FltEntersTheFaultPhase : Prop :=
  decode (.seq 0xD) = .instr .flt ∧
  ∀ s : State, ∃ t, exec .flt s = .next t ∧
    (s.opCause = .misuse →
      t.ERR = .misuse ∧ ShowsFault 1 t ∧ ∀ n : Fin 3, t.ERRLOG[n] = (s.ERRLOG[n] || n == 0)) ∧
    (s.opCause = .overflow →
      t.ERR = .overflow ∧ ShowsFault 2 t ∧ ∀ n : Fin 3, t.ERRLOG[n] = (s.ERRLOG[n] || n == 1)) ∧
    (s.opCause = .illegal →
      t.ERR = .illegal ∧ ShowsFault 3 t ∧ ∀ n : Fin 3, t.ERRLOG[n] = (s.ERRLOG[n] || n == 2)) ∧
    (∀ addr, t.DIG.read addr = none) ∧ t.PHASE = .fault ∧ t.S = s.S ∧ SameCounts s t ∧ SameBytes s.BUF t.BUF ∧
    SameWork s t ∧ t.ROM = s.ROM ∧ SameSequencer s t

/-! ### The Compressor -/

/-- R122: CBEG, code 0x3. S is not changed. -/
def Obligations.CbegCopiesTheChainingState : Prop :=
  decode (.seq 0x3) = .instr .cbeg ∧
  ∀ s : State, ∃ t, exec .cbeg s = .next t ∧ t.a = s.S.word 0 ∧ t.b = s.S.word 1 ∧ t.c = s.S.word 2 ∧
    t.d = s.S.word 3 ∧ t.i = 0 ∧ t.S = s.S ∧ SameCounts s t ∧ SameBytes s.BUF t.BUF ∧ SameBytes s.DIG t.DIG ∧
    SameStatus s t ∧ t.ROM = s.ROM ∧ SameSequencer s t

/-- R129: CEND, code 0x8: four independent additions modulo 2^32. Nothing is said of a, b, c, d, i, which become undef. -/
def Obligations.CendAddsTheWorkingRegisters : Prop :=
  decode (.seq 0x8) = .instr .cend ∧
  ∀ s : State, ∃ t, exec .cend s = .next t ∧ (t.S.word 0).toNat = ((s.S.word 0).toNat + s.a.toNat) % 2 ^ 32 ∧
    (t.S.word 1).toNat = ((s.S.word 1).toNat + s.b.toNat) % 2 ^ 32 ∧
    (t.S.word 2).toNat = ((s.S.word 2).toNat + s.c.toNat) % 2 ^ 32 ∧
    (t.S.word 3).toNat = ((s.S.word 3).toNat + s.d.toNat) % 2 ^ 32 ∧ SameCounts s t ∧ SameBytes s.BUF t.BUF ∧
    SameBytes s.DIG t.DIG ∧ SameStatus s t ∧ t.ROM = s.ROM ∧ SameSequencer s t

/-- R123: the four nonlinear functions, their numbering by `fsel`, and their truth table in every bit position. -/
def Obligations.RoundFunctionsFollowTheTruthTable : Prop :=
  ∀ x y z : Word,
    roundFn 0 x y z = (x &&& y) ||| (~~~x &&& z) ∧ roundFn 1 x y z = (x &&& z) ||| (y &&& ~~~z) ∧
    roundFn 2 x y z = x ^^^ y ^^^ z ∧ roundFn 3 x y z = y ^^^ (x ||| ~~~z) ∧
    ∀ n, n < 32 →
      (roundFn 0 x y z).getLsbD n = (if x.getLsbD n then y.getLsbD n else z.getLsbD n) ∧
      (roundFn 1 x y z).getLsbD n = (if z.getLsbD n then x.getLsbD n else y.getLsbD n) ∧
      (roundFn 2 x y z).getLsbD n = ((x.getLsbD n != y.getLsbD n) != z.getLsbD n) ∧
      (roundFn 3 x y z).getLsbD n = (y.getLsbD n != (x.getLsbD n || !z.getLsbD n))

/-- What R124 gives a step with round function value `f`, message word `m`, rotation `rot` and constant `k`: the new b is
b + rotl32(a + f + m + k, rot) and (a, c, d) <- (d, b, c); i advances, or is undef after i = 63. A rotation amount of 0
is outside R84 and its result is free (log entry 9): then nothing is said of the new b. Everything else is unchanged. -/
def StepResult (f m : Word) (rot : BitVec 5) (k : Word) (s t : State) : Prop :=
  (rot ≠ 0 → t.b = s.b + (s.a + f + m + k).rotateLeft rot.toNat) ∧ t.a = s.d ∧ t.c = s.b ∧ t.d = s.c ∧
    (s.i ≠ 63#6 → t.i.toNat = s.i.toNat + 1) ∧ t.S = s.S ∧ SameCounts s t ∧ SameBytes s.BUF t.BUF ∧
    SameBytes s.DIG t.DIG ∧ SameStatus s t ∧ t.ROM = s.ROM ∧ SameSequencer s t

/-- R124 to R128: the four steps, for every row: STEP.F with f = F(b, c, d), STEP.G with G, STEP.H with H, STEP.I with I,
and the message word M[g]. -/
def Obligations.StepsMixTheWorkingRegisters : Prop :=
  ∀ (g : BitVec 4) (rot : BitVec 5) (k : Word) (s : State),
    (∃ t, exec (.stepF g rot k) s = .next t ∧
      StepResult ((s.b &&& s.c) ||| (~~~s.b &&& s.d)) (messageWord s g) rot k s t) ∧
    (∃ t, exec (.stepG g rot k) s = .next t ∧
      StepResult ((s.b &&& s.d) ||| (s.c &&& ~~~s.d)) (messageWord s g) rot k s t) ∧
    (∃ t, exec (.stepH g rot k) s = .next t ∧
      StepResult (s.b ^^^ s.c ^^^ s.d) (messageWord s g) rot k s t) ∧
    (∃ t, exec (.stepI g rot k) s = .next t ∧
      StepResult (s.c ^^^ (s.b ||| ~~~s.d)) (messageWord s g) rot k s t)

/-- R52: M[g] is the little-endian value of BUF[4g..4g+3]. -/
def Obligations.MessageWordIsLittleEndian : Prop :=
  ∀ (s : State) (g : BitVec 4) (b0 b1 b2 b3 : Byte), s.BUF.read (4 * g.toNat) = some b0 →
    s.BUF.read (4 * g.toNat + 1) = some b1 → s.BUF.read (4 * g.toNat + 2) = some b2 →
    s.BUF.read (4 * g.toNat + 3) = some b3 →
    (messageWord s g).toNat = b0.toNat + 2 ^ 8 * b1.toNat + 2 ^ 16 * b2.toNat + 2 ^ 24 * b3.toNat

/-- R120: the sequence CBEG, 64 steps, CEND computes the function Compress(H, Bk) of the chaining state and the 64 bytes
of BUF, and changes nothing else but the scratch registers. -/
def Obligations.CompressSequenceIsTheFunction : Prop :=
  ∀ s : State, s.ROM = romTable →
    (compress s).S = compressFn s.S ((List.range 64).map (bufByte s)) ∧ SameCounts s (compress s) ∧
      SameBytes s.BUF (compress s).BUF ∧ SameBytes s.DIG (compress s).DIG ∧ SameStatus s (compress s) ∧
      (compress s).ROM = s.ROM

/-! ### The Padder/Finalizer -/

/-- R151: PAD80, code 0x9: BUF[LEN] <- 0x80, and nothing else. -/
def Obligations.Pad80StoresThePaddingByte : Prop :=
  decode (.seq 0x9) = .instr .pad80 ∧
  ∀ s : State, ∃ t, exec .pad80 s = .next t ∧ t.BUF.read s.LEN.toNat = some 0x80 ∧
    SameBytesOutside s.LEN.toNat s.LEN.toNat s.BUF t.BUF ∧ t.S = s.S ∧ SameCounts s t ∧ SameWork s t ∧
    SameBytes s.DIG t.DIG ∧ SameStatus s t ∧ t.ROM = s.ROM ∧ SameSequencer s t

/-- R152: PADZ(lo, hi), code 0xA, on the bounds the sequencer holds (log entry 10): zeros at lo .. hi inclusive, nothing
when lo > hi, and nothing else. -/
def Obligations.PadzStoresZeros : Prop :=
  decode (.seq 0xA) = .instr .padz ∧
  ∀ s : State, ∃ t, exec .padz s = .next t ∧
    (∀ j, s.opLo.toNat ≤ j → j ≤ s.opHi.toNat → t.BUF.read j = some 0) ∧
    SameBytesOutside s.opLo.toNat s.opHi.toNat s.BUF t.BUF ∧ t.S = s.S ∧ SameCounts s t ∧ SameWork s t ∧
    SameBytes s.DIG t.DIG ∧ SameStatus s t ∧ t.ROM = s.ROM ∧ SameSequencer s t

/-- R153: PADL, code 0xB: the 64-bit value CNT * 8 at BUF[56..63], least significant byte first, so that M[14] and M[15]
are its low and high word, and nothing else. -/
def Obligations.PadlStoresTheBitCount : Prop :=
  decode (.seq 0xB) = .instr .padl ∧
  ∀ s : State, ∃ t, exec .padl s = .next t ∧
    (∀ k, k < 8 → t.BUF.read (56 + k) = some ((s.CNT * 8).extractLsb' (8 * k) 8)) ∧
    messageWord t 14 = (s.CNT * 8).extractLsb' 0 32 ∧ messageWord t 15 = (s.CNT * 8).extractLsb' 32 32 ∧
    (s.CNT.toNat ≤ 2 ^ 61 - 1 → (messageWord t 14).toNat + 2 ^ 32 * (messageWord t 15).toNat = 8 * s.CNT.toNat) ∧
    SameBytesOutside 56 63 s.BUF t.BUF ∧ t.S = s.S ∧ SameCounts s t ∧ SameWork s t ∧ SameBytes s.DIG t.DIG ∧
    SameStatus s t ∧ t.ROM = s.ROM ∧ SameSequencer s t

/-- R155: SER, code 0xC: DIG[4k + j] <- S[k][8j+7:8j], PHASE <- DONE, and nothing else; S is not changed. -/
def Obligations.SerStoresTheDigest : Prop :=
  decode (.seq 0xC) = .instr .ser ∧
  ∀ s : State, ∃ t, exec .ser s = .next t ∧ HoldsSerialised t.DIG s.S ∧ SameBytesOutside 0 15 s.DIG t.DIG ∧
    t.PHASE = .done ∧ digestValid t = true ∧ t.S = s.S ∧ SameCounts s t ∧ SameBytes s.BUF t.BUF ∧ SameWork s t ∧
    t.ERR = s.ERR ∧ t.ERRLOG = s.ERRLOG ∧ t.ROM = s.ROM ∧ SameSequencer s t

/-- R37, R155: after SER the port `digest_o` carries S[k] on its bits 32k+31:32k. -/
def Obligations.DigestPortCarriesTheChainingWords : Prop :=
  ∀ s : State, ∃ t v, exec .ser s = .next t ∧ (ports t).digest_valid_o = true ∧ (ports t).digest_o = some v ∧
    ∀ k, k < 4 → v.extractLsb' (32 * k) 32 = s.S.word k

/-! ### Memory -/

/-- R67: a read returns the value of the latest write to that location; the other locations keep theirs; the write keeps
the canonical form, which is the model's (log entry 6), and the bounds of the space. -/
def Obligations.ReadReturnsTheLatestWrite : Prop :=
  ∀ (m : Memory) (addr bound : Nat) (v : Byte), (m.write addr v).read addr = some v ∧
    SameBytesOutside addr addr m (m.write addr v) ∧ (m.wf = true → (m.write addr v).wf = true) ∧
    (addr < bound → m.within bound = true → (m.write addr v).within bound = true)

/-- Equal contents are equal data: two canonical memories that read alike are the same list (log entry 6). -/
def Obligations.CanonicalMemoriesAreEqualWhenTheyReadAlike : Prop :=
  ∀ m m' : Memory, m.wf = true → m'.wf = true → SameBytes m m' → m = m'

/-! ### Whole-machine rules -/

/-- The invariant holds at reset. -/
def Obligations.ResetMeetsTheInvariant : Prop := Inv State.reset

/-- Every step keeps the invariant: the ROM is fixed (R53), memory is canonical and in range (R51, R54), CNT stays within
MAX_BYTES (R28, R172), LEN = CNT mod 64 while absorbing (R29), ERR != NONE exactly in FAULT (R31), DIG holds a value
exactly in DONE (R34), and no byte of BUF is read by a compression before it was written (R66). The canonical form is the
model's (log entry 6), and so are the operand fields the clauses on PADZ read (log entry 10). -/
def Obligations.EveryStepKeepsTheInvariant : Prop := ∀ s t : State, Inv s → step s = .next t → Inv t

/-- R9, D1: at the command level commands are atomic: from a command boundary every step leads to one. `level` is the
model's own field (log entry 1). -/
def Obligations.CommandLevelStaysAtBoundaries : Prop :=
  ∀ s t : State, AtBoundary s → step s = .next t → AtBoundary t

/-- R32: fault entry sets the bit of its cause, which the sequencer holds (log entry 10); nothing but reset clears a bit of
ERRLOG; INIT leaves it unchanged. -/
def Obligations.ErrlogIsSticky : Prop :=
  (∀ s t : State, exec .flt s = .next t → ∀ n : Fin 3, n.val + 1 = s.opCause.code → t.ERRLOG[n] = true) ∧
  (∀ s t : State, step s = .next t → s.stim.head? ≠ some .rst → ∀ n : Fin 3, s.ERRLOG[n] = true → t.ERRLOG[n] = true) ∧
  (∀ s t : State, exec .init s = .next t → t.ERRLOG = s.ERRLOG)

/-- R34, R159: while PHASE = DONE nothing writes the digest: a step from DONE to DONE leaves DIG as it is. -/
def Obligations.DigestIsImmutableWhileDone : Prop :=
  ∀ s t : State, Inv s → step s = .next t → s.PHASE = .done → t.PHASE = .done → t.DIG = s.DIG

/-- R178: the only ways out of FAULT are INIT (accepted at the command level, or its LDIV running at the micro-op level)
and reset, and both lead to ABSORB with ERR = NONE. That a busy core at the micro-op level stands at LDIV after INIT's
acceptance is the model's order (log entry 12). -/
def Obligations.OnlyInitAndResetLeaveFault : Prop :=
  ∀ s t : State, Inv s → step s = .next t → s.PHASE = .fault → t.PHASE ≠ .fault →
    (s.stim.head? = some .rst ∨ (AtBoundary s ∧ s.stim.head? = some (.cmd 0x000)) ∨ s.SEQ = .ldiv) ∧
      t.PHASE = .absorb ∧ t.ERR = .none

/-- The columns "written by" of 10_state section 1 and 20_memory R50: an instruction that is not among the writers of a
register leaves it unchanged (INIT runs LDIV, UPD and FIN run the micro-ops of R102 and R103). INIT leaves BUF undef
(R38; log entry 7), FIN leaves LEN undef (R29; log entry 5): both stand here among those that change it. -/
def Obligations.OnlyTheNamedWritersWrite : Prop :=
  ∀ (i : Instr) (s t : State), exec i s = .next t →
    (t.S ≠ s.S → i ∈ [.init, .fin, .ldiv, .cend] ∨ ∃ x, i = .upd x) ∧
    (t.CNT ≠ s.CNT → i ∈ [.init, .ldiv, .absb] ∨ ∃ x, i = .upd x) ∧
    (t.LEN ≠ s.LEN → i ∈ [.init, .fin, .ldiv, .absb] ∨ ∃ x, i = .upd x) ∧
    (t.BUF ≠ s.BUF → i ∈ [.init, .fin, .absb, .pad80, .padz, .padl] ∨ ∃ x, i = .upd x) ∧
    (t.DIG ≠ s.DIG → i ∈ [.init, .fin, .ldiv, .ser, .flt] ∨ ∃ x, i = .upd x) ∧
    (t.PHASE ≠ s.PHASE → i ∈ [.init, .fin, .ldiv, .ser, .flt] ∨ ∃ x, i = .upd x) ∧
    (t.ERR ≠ s.ERR → i ∈ [.init, .fin, .ldiv, .flt] ∨ ∃ x, i = .upd x) ∧
    (t.ERRLOG ≠ s.ERRLOG → i ∈ [.fin, .flt] ∨ ∃ x, i = .upd x) ∧
    (¬SameWork s t → i ∈ [.fin, .cbeg, .cend] ∨ i.format = .romRow ∨ ∃ x, i = .upd x) ∧
    t.ROM = s.ROM ∧ SameSequencer s t

/-! ### The two levels -/

/-- R9: "A model may implement either level; the two must agree at command boundaries." From an idle core at the micro-op
level with an offered word, the sequencer runs the command to the next boundary; while it is busy the ports show the
values from before the command with cmd_ready_o = 0; at the end every register is as the command level's one step leaves
it (the model's own operand fields and level apart: log entries 1, 10). The bound 138 rests on the order of the micro-ops
and on acceptance as a step of its own (log entry 12); the undef a, b, c, d, i and LEN are equal because equal counters draw
equal free values, the model's choice (log entry 11). -/
def Obligations.MicroLevelAgreesWithCommandLevel : Prop :=
  ∀ (s u : State) (w : BitVec 10) (rest : List HostEvent), s.SEQ = .idle → s.level = .micro → s.stim = .cmd w :: rest →
    HostWaits rest → step { s with level := .command } = .next u →
    ∃ n t, 1 ≤ n ∧ n ≤ 138 ∧ Runs n s t ∧ t.SEQ = .idle ∧ forgetMicro t = forgetMicro u ∧
      ∀ k v, 1 ≤ k → k < n → Runs k s v → ports v = { ports s with cmd_ready_o := false }

/-! ### The whole function -/

/-- R109: for every message of at most MAX_BYTES bytes, INIT, one UPD per byte and FIN, from any command boundary, end in
phase DONE with DIG = Digest(m), with no fault on the way. -/
def Obligations.EveryMessageGetsItsDigest : Prop :=
  ∀ (msg : List Byte) (s : State) (rest : List HostEvent), msg.length ≤ 2 ^ 61 - 1 → AtBoundary s → s.ROM = romTable →
    s.stim = digestEvents msg ++ rest →
    ∃ t, Runs (msg.length + 2) s t ∧ AtBoundary t ∧ t.stim = rest ∧ t.PHASE = .done ∧ t.ERR = .none ∧
      t.ERRLOG = s.ERRLOG ∧ t.CNT.toNat = msg.length ∧ (digest msg).length = 16 ∧
      ∀ j, j < 16 → t.DIG.read j = (digest msg)[j]?

/-- R157: the padded message is a positive multiple of 64 bytes long, one block more than the whole blocks of the message
when n mod 64 <= 55 and two otherwise, at least n + 9. -/
def Obligations.PaddedLengthIsTheBlockCount : Prop :=
  ∀ msg : List Byte,
    (padded msg).length = 64 * (msg.length / 64 + if msg.length % 64 ≤ 55 then 1 else 2) ∧
      msg.length + 9 ≤ (padded msg).length

/-- R104, R105: how the input is split into chunks does not matter. Any list of chunks, empty ones too, each fed by
UPDATE and followed by any number of quiet edges, leads to the state that one UPDATE with all the bytes leads to; an
absorbing core has then absorbed every byte, while there is room for them. The host's list is the model's (log entry 2); undef
registers are equal because equal counters draw equal free values, the model's choice (log entry 11). -/
def Obligations.ChunkingDoesNotMatter : Prop :=
  ∀ (chunks : List (List Byte × Nat)) (s : State) (rest : List HostEvent), AtBoundary s →
    ∃ t, Runs (chunkedEvents chunks).length { s with stim := chunkedEvents chunks ++ rest } t ∧
      Runs (chunks.flatMap Prod.fst).length { s with stim := updateEvents (chunks.flatMap Prod.fst) ++ rest } t ∧
      AtBoundary t ∧ t.stim = rest ∧
      (s.PHASE = .absorb → s.CNT.toNat + (chunks.flatMap Prod.fst).length ≤ 2 ^ 61 - 1 →
        t.PHASE = .absorb ∧ t.CNT.toNat = s.CNT.toNat + (chunks.flatMap Prod.fst).length ∧
        t.LEN.toNat = (s.LEN.toNat + (chunks.flatMap Prod.fst).length) % 64 ∧
        ∀ x, (chunks.flatMap Prod.fst).getLast? = some x → t.BUF.read ((t.LEN.toNat + 63) % 64) = some x)

/-- R106, R36: nothing the host sees depends on scratch. Two states at a boundary that differ only in the working
registers, the model's own fields, stale buffer bytes, and the remains of a finished computation show the same ports,
and every step keeps it so. The model's own fields are those of log entries 1, 2, 10 and 11; unlisted bytes are log entry 6. -/
def Obligations.ScratchNeverReachesTheHost : Prop :=
  ∀ s s' : State, SameForHost s s' → ports s' = ports s ∧
    ∃ t t', step s = .next t ∧ step s' = .next t' ∧ SameForHost t t'

/-- R183, R72, R109: instances cannot affect each other. In a system of instances an instance to which a message is
offered has its digest after its own n + 2 steps, whatever the other instances are, whatever is offered to them and however
their steps stand between its own (`stim`: log entry 2). -/
def Obligations.InstancesDoNotInteract : Prop :=
  ∀ (sys : System) (schedule : List Nat) (k : Nat) (msg : List Byte) (s : State) (rest : List HostEvent),
    sys[k]? = some s → msg.length ≤ 2 ^ 61 - 1 → AtBoundary s → s.ROM = romTable →
    s.stim = digestEvents msg ++ rest → schedule.count k = msg.length + 2 →
    ∃ t, (runSchedule schedule sys)[k]? = some t ∧ AtBoundary t ∧ t.stim = rest ∧ t.PHASE = .done ∧ t.ERR = .none ∧
      ∀ j, j < 16 → t.DIG.read j = (digest msg)[j]?
end

