-- ==== Sys2Proof/Laws/Memory.lean ====
section
/-! SUPPORT. The laws of byte memory: a read after a write, writes of several bytes, and the canonical form. -/

namespace Sys2Proof.Machine

/-! ### Reading -/

@[simp] theorem Memory.read_nil (addr : Nat) : Memory.read [] addr = none := rfl

theorem Memory.read_cons (x : Nat) (v : Byte) (rest : Memory) (addr : Nat) :
    Memory.read ((x, v) :: rest) addr = if addr = x then some v else Memory.read rest addr := rfl

/-- A read after a write of one byte. -/
theorem Memory.read_write (m : Memory) (addr : Nat) (v : Byte) (at' : Nat) :
    (m.write addr v).read at' = if at' = addr then some v else m.read at' := by
  induction m with
  | nil => simp [Memory.write, Memory.read_cons]
  | cons cell rest ih =>
    obtain ⟨x, u⟩ := cell
    by_cases h1 : addr < x
    · simp [Memory.write, h1, Memory.read_cons]
    · by_cases h2 : addr = x
      · subst h2
        simp only [Memory.write, Nat.lt_irrefl, if_false, if_true, Memory.read_cons]
        by_cases h3 : at' = addr <;> simp [h3]
      · simp only [Memory.write, h1, h2, if_false, Memory.read_cons, ih]
        by_cases h3 : at' = x
        · have hne : ¬x = addr := fun h => h2 h.symm
          simp [h3, hne]
        · simp [h3]

@[simp] theorem Memory.read_write_same (m : Memory) (addr : Nat) (v : Byte) : (m.write addr v).read addr = some v := by
  simp [Memory.read_write]

theorem Memory.read_write_other (m : Memory) {addr at' : Nat} (v : Byte) (h : at' ≠ addr) :
    (m.write addr v).read at' = m.read at' := by
  simp [Memory.read_write, h]

@[simp] theorem Memory.writeBytes_nil (m : Memory) (addr : Nat) : m.writeBytes addr [] = m := by rw [Memory.writeBytes]

@[simp] theorem Memory.writeBytes_cons (m : Memory) (addr : Nat) (v : Byte) (rest : List Byte) :
    m.writeBytes addr (v :: rest) = (m.write addr v).writeBytes (addr + 1) rest := by rw [Memory.writeBytes]

/-- A read after a write of a list of bytes. -/
theorem Memory.read_writeBytes (m : Memory) (addr : Nat) (bytes : List Byte) (at' : Nat) :
    (m.writeBytes addr bytes).read at' =
      if addr ≤ at' ∧ at' < addr + bytes.length then bytes[at' - addr]? else m.read at' := by
  induction bytes generalizing m addr with
  | nil =>
    have : ¬(addr ≤ at' ∧ at' < addr + ([] : List Byte).length) := by simp
    simp only [Memory.writeBytes_nil, this, if_false]
  | cons v rest ih =>
    simp only [Memory.writeBytes_cons, ih, Memory.read_write, List.length_cons]
    rcases Nat.lt_trichotomy at' addr with h | h | h
    · have h1 : ¬(addr + 1 ≤ at' ∧ at' < addr + 1 + rest.length) := by omega
      have h2 : ¬(addr ≤ at' ∧ at' < addr + (rest.length + 1)) := by omega
      rw [if_neg h1, if_neg h2, if_neg (Nat.ne_of_lt h)]
    · subst h
      simp
    · by_cases h1 : at' < addr + 1 + rest.length
      · have h2 : addr + 1 ≤ at' ∧ at' < addr + 1 + rest.length := by omega
        have h3 : addr ≤ at' ∧ at' < addr + (rest.length + 1) := by omega
        have h4 : at' - addr = (at' - (addr + 1)) + 1 := by omega
        rw [if_pos h2, if_pos h3, h4, List.getElem?_cons_succ]
      · have h2 : ¬(addr + 1 ≤ at' ∧ at' < addr + 1 + rest.length) := by omega
        have h3 : ¬(addr ≤ at' ∧ at' < addr + (rest.length + 1)) := by omega
        rw [if_neg h2, if_neg h3, if_neg (by omega)]

/-- A read after PADZ's store of zeros. -/
theorem Memory.read_zeroFill (m : Memory) (lo hi at' : Nat) :
    (m.zeroFill lo hi).read at' = if lo ≤ at' ∧ at' ≤ hi then some 0 else m.read at' := by
  simp only [Memory.zeroFill, Memory.read_writeBytes, List.length_replicate]
  by_cases h : lo ≤ at' ∧ at' ≤ hi
  · have h1 : lo ≤ at' ∧ at' < lo + (hi + 1 - lo) := by omega
    rw [if_pos h1, if_pos h, List.getElem?_replicate, if_pos (by omega)]
  · have h1 : ¬(lo ≤ at' ∧ at' < lo + (hi + 1 - lo)) := by omega
    rw [if_neg h1, if_neg h]

theorem Memory.byteAt_of_read {m : Memory} {addr : Nat} {v : Byte} (fresh : Nat) (h : m.read addr = some v) :
    m.byteAt fresh addr = v := by
  simp [Memory.byteAt, h]

/-! ### The canonical form -/

/-- Every address of a canonical memory lies above its first. -/
theorem Memory.wf_cons_iff (x : Nat) (v : Byte) (rest : Memory) :
    Memory.wf ((x, v) :: rest) = true ↔ Memory.wf rest = true ∧ ∀ cell ∈ rest, x < cell.1 := by
  induction rest generalizing x v with
  | nil => simp [Memory.wf]
  | cons cell rest ih =>
    obtain ⟨y, u⟩ := cell
    simp only [Memory.wf, Bool.and_eq_true, decide_eq_true_eq, ih, List.mem_cons, forall_eq_or_imp]
    constructor
    · rintro ⟨hxy, hw, hall⟩
      exact ⟨⟨hw, hall⟩, hxy, fun cell hc => Nat.lt_trans hxy (hall cell hc)⟩
    · rintro ⟨⟨hw, hall⟩, hxy, -⟩
      exact ⟨hxy, hw, hall⟩

theorem Memory.mem_write {m : Memory} {addr : Nat} {v : Byte} {cell : Host.Cell} (h : cell ∈ m.write addr v) :
    cell = (addr, v) ∨ cell ∈ m := by
  induction m with
  | nil => simpa [Memory.write] using h
  | cons head rest ih =>
    obtain ⟨x, u⟩ := head
    simp only [Memory.write] at h
    split at h
    · simpa using h
    · split at h
      · rcases List.mem_cons.1 h with h | h
        · exact .inl h
        · exact .inr (List.mem_cons_of_mem _ h)
      · rcases List.mem_cons.1 h with h | h
        · exact .inr (h ▸ List.mem_cons_self)
        · rcases ih h with h | h
          · exact .inl h
          · exact .inr (List.mem_cons_of_mem _ h)

/-- A write keeps the canonical form. -/
theorem Memory.wf_write {m : Memory} (addr : Nat) (v : Byte) (h : m.wf = true) : (m.write addr v).wf = true := by
  induction m with
  | nil => rfl
  | cons head rest ih =>
    obtain ⟨x, u⟩ := head
    obtain ⟨hw, hall⟩ := (Memory.wf_cons_iff x u rest).1 h
    simp only [Memory.write]
    split
    · next hlt =>
      refine (Memory.wf_cons_iff addr v _).2 ⟨h, fun cell hc => ?_⟩
      rcases List.mem_cons.1 hc with hc | hc
      · exact hc ▸ hlt
      · exact Nat.lt_trans hlt (hall cell hc)
    · split
      · next _ heq => exact (Memory.wf_cons_iff addr v rest).2 ⟨hw, heq ▸ hall⟩
      · next hnlt hne =>
        refine (Memory.wf_cons_iff x u _).2 ⟨ih hw, fun cell hc => ?_⟩
        rcases Memory.mem_write hc with hc | hc
        · subst hc
          simp only
          omega
        · exact hall cell hc

theorem Memory.wf_writeBytes {m : Memory} (addr : Nat) (bytes : List Byte) (h : m.wf = true) :
    (m.writeBytes addr bytes).wf = true := by
  induction bytes generalizing m addr with
  | nil => simpa using h
  | cons v rest ih => simpa using ih (addr + 1) (Memory.wf_write addr v h)

theorem Memory.wf_zeroFill {m : Memory} (lo hi : Nat) (h : m.wf = true) : (m.zeroFill lo hi).wf = true :=
  Memory.wf_writeBytes _ _ h

@[simp] theorem Memory.wf_nil : Memory.wf [] = true := rfl

@[simp] theorem Memory.within_nil (bound : Nat) : Memory.within bound [] = true := rfl

theorem Memory.within_iff (bound : Nat) (m : Memory) : m.within bound = true ↔ ∀ cell ∈ m, cell.1 < bound := by
  simp [Memory.within, List.all_eq_true]

/-- A write below the bound keeps every address below it. -/
theorem Memory.within_write {m : Memory} {bound addr : Nat} (v : Byte) (haddr : addr < bound)
    (h : m.within bound = true) : (m.write addr v).within bound = true := by
  rw [Memory.within_iff] at h ⊢
  intro cell hc
  rcases Memory.mem_write hc with hc | hc
  · exact hc ▸ haddr
  · exact h cell hc

theorem Memory.within_writeBytes {m : Memory} {bound addr : Nat} (bytes : List Byte)
    (haddr : addr + bytes.length ≤ bound) (h : m.within bound = true) :
    (m.writeBytes addr bytes).within bound = true := by
  induction bytes generalizing m addr with
  | nil => simpa using h
  | cons v rest ih =>
    simp only [List.length_cons] at haddr
    simpa using ih (addr := addr + 1) (by omega) (Memory.within_write v (by omega) h)

theorem Memory.within_zeroFill {m : Memory} {bound lo hi : Nat} (hhi : hi < bound) (h : m.within bound = true) :
    (m.zeroFill lo hi).within bound = true := by
  by_cases hle : lo ≤ hi
  · exact Memory.within_writeBytes _ (by rw [List.length_replicate]; omega) h
  · have : hi + 1 - lo = 0 := by omega
    simpa [Memory.zeroFill, this] using h

/-! ### Byte lists -/

@[simp] theorem bytesLE_length (n : Nat) {w : Nat} (v : BitVec w) : (bytesLE n v).length = n := by
  simp [bytesLE]

theorem bytesLE_getElem? {n k : Nat} {w : Nat} (v : BitVec w) (h : k < n) :
    (bytesLE n v)[k]? = some (v.extractLsb' (8 * k) 8) := by
  simp [bytesLE, h]

end Sys2Proof.Machine
end

