-- ==== Sys2Proof/Laws/State.lean ====
section
/-! SUPPORT. One lemma per field of State per shared update, each true by rfl (in parentheses, so that simp rewrites with the
equation and never asks the kernel to compare two unfolded states). -/

namespace Sys2Proof.Machine

/-! ### `a, b, c, d, i` become undef (R129) -/

@[simp] theorem freeWork_S (s : State) : (freeWork s).S = s.S := (rfl)
@[simp] theorem freeWork_CNT (s : State) : (freeWork s).CNT = s.CNT := (rfl)
@[simp] theorem freeWork_LEN (s : State) : (freeWork s).LEN = s.LEN := (rfl)
@[simp] theorem freeWork_BUF (s : State) : (freeWork s).BUF = s.BUF := (rfl)
@[simp] theorem freeWork_a (s : State) : (freeWork s).a = Config.freeWord s.fresh := (rfl)
@[simp] theorem freeWork_b (s : State) : (freeWork s).b = Config.freeWord (s.fresh + 1) := (rfl)
@[simp] theorem freeWork_c (s : State) : (freeWork s).c = Config.freeWord (s.fresh + 2) := (rfl)
@[simp] theorem freeWork_d (s : State) : (freeWork s).d = Config.freeWord (s.fresh + 3) := (rfl)
@[simp] theorem freeWork_i (s : State) : (freeWork s).i = Config.freeSix (s.fresh + 4) := (rfl)
@[simp] theorem freeWork_ROM (s : State) : (freeWork s).ROM = s.ROM := (rfl)
@[simp] theorem freeWork_DIG (s : State) : (freeWork s).DIG = s.DIG := (rfl)
@[simp] theorem freeWork_PHASE (s : State) : (freeWork s).PHASE = s.PHASE := (rfl)
@[simp] theorem freeWork_ERR (s : State) : (freeWork s).ERR = s.ERR := (rfl)
@[simp] theorem freeWork_ERRLOG (s : State) : (freeWork s).ERRLOG = s.ERRLOG := (rfl)
@[simp] theorem freeWork_SEQ (s : State) : (freeWork s).SEQ = s.SEQ := (rfl)
@[simp] theorem freeWork_opData (s : State) : (freeWork s).opData = s.opData := (rfl)
@[simp] theorem freeWork_opLo (s : State) : (freeWork s).opLo = s.opLo := (rfl)
@[simp] theorem freeWork_opHi (s : State) : (freeWork s).opHi = s.opHi := (rfl)
@[simp] theorem freeWork_opCause (s : State) : (freeWork s).opCause = s.opCause := (rfl)
@[simp] theorem freeWork_caller (s : State) : (freeWork s).caller = s.caller := (rfl)
@[simp] theorem freeWork_level (s : State) : (freeWork s).level = s.level := (rfl)
@[simp] theorem freeWork_stim (s : State) : (freeWork s).stim = s.stim := (rfl)
@[simp] theorem freeWork_fresh (s : State) : (freeWork s).fresh = s.fresh + 5 := (rfl)

/-! ### `LEN` becomes undef (R29) -/

@[simp] theorem freeLen_S (s : State) : (freeLen s).S = s.S := (rfl)
@[simp] theorem freeLen_CNT (s : State) : (freeLen s).CNT = s.CNT := (rfl)
@[simp] theorem freeLen_LEN (s : State) : (freeLen s).LEN = Config.freeSix s.fresh := (rfl)
@[simp] theorem freeLen_BUF (s : State) : (freeLen s).BUF = s.BUF := (rfl)
@[simp] theorem freeLen_a (s : State) : (freeLen s).a = s.a := (rfl)
@[simp] theorem freeLen_b (s : State) : (freeLen s).b = s.b := (rfl)
@[simp] theorem freeLen_c (s : State) : (freeLen s).c = s.c := (rfl)
@[simp] theorem freeLen_d (s : State) : (freeLen s).d = s.d := (rfl)
@[simp] theorem freeLen_i (s : State) : (freeLen s).i = s.i := (rfl)
@[simp] theorem freeLen_ROM (s : State) : (freeLen s).ROM = s.ROM := (rfl)
@[simp] theorem freeLen_DIG (s : State) : (freeLen s).DIG = s.DIG := (rfl)
@[simp] theorem freeLen_PHASE (s : State) : (freeLen s).PHASE = s.PHASE := (rfl)
@[simp] theorem freeLen_ERR (s : State) : (freeLen s).ERR = s.ERR := (rfl)
@[simp] theorem freeLen_ERRLOG (s : State) : (freeLen s).ERRLOG = s.ERRLOG := (rfl)
@[simp] theorem freeLen_SEQ (s : State) : (freeLen s).SEQ = s.SEQ := (rfl)
@[simp] theorem freeLen_opData (s : State) : (freeLen s).opData = s.opData := (rfl)
@[simp] theorem freeLen_opLo (s : State) : (freeLen s).opLo = s.opLo := (rfl)
@[simp] theorem freeLen_opHi (s : State) : (freeLen s).opHi = s.opHi := (rfl)
@[simp] theorem freeLen_opCause (s : State) : (freeLen s).opCause = s.opCause := (rfl)
@[simp] theorem freeLen_caller (s : State) : (freeLen s).caller = s.caller := (rfl)
@[simp] theorem freeLen_level (s : State) : (freeLen s).level = s.level := (rfl)
@[simp] theorem freeLen_stim (s : State) : (freeLen s).stim = s.stim := (rfl)
@[simp] theorem freeLen_fresh (s : State) : (freeLen s).fresh = s.fresh + 1 := (rfl)

/-! ### LDIV (R108) -/

@[simp] theorem loadInitial_S (s : State) : (loadInitial s).S = iv := (rfl)
@[simp] theorem loadInitial_CNT (s : State) : (loadInitial s).CNT = 0 := (rfl)
@[simp] theorem loadInitial_LEN (s : State) : (loadInitial s).LEN = 0 := (rfl)
@[simp] theorem loadInitial_BUF (s : State) : (loadInitial s).BUF = s.BUF := (rfl)
@[simp] theorem loadInitial_a (s : State) : (loadInitial s).a = s.a := (rfl)
@[simp] theorem loadInitial_b (s : State) : (loadInitial s).b = s.b := (rfl)
@[simp] theorem loadInitial_c (s : State) : (loadInitial s).c = s.c := (rfl)
@[simp] theorem loadInitial_d (s : State) : (loadInitial s).d = s.d := (rfl)
@[simp] theorem loadInitial_i (s : State) : (loadInitial s).i = s.i := (rfl)
@[simp] theorem loadInitial_ROM (s : State) : (loadInitial s).ROM = s.ROM := (rfl)
@[simp] theorem loadInitial_DIG (s : State) : (loadInitial s).DIG = [] := (rfl)
@[simp] theorem loadInitial_PHASE (s : State) : (loadInitial s).PHASE = .absorb := (rfl)
@[simp] theorem loadInitial_ERR (s : State) : (loadInitial s).ERR = .none := (rfl)
@[simp] theorem loadInitial_ERRLOG (s : State) : (loadInitial s).ERRLOG = s.ERRLOG := (rfl)
@[simp] theorem loadInitial_SEQ (s : State) : (loadInitial s).SEQ = s.SEQ := (rfl)
@[simp] theorem loadInitial_opData (s : State) : (loadInitial s).opData = s.opData := (rfl)
@[simp] theorem loadInitial_opLo (s : State) : (loadInitial s).opLo = s.opLo := (rfl)
@[simp] theorem loadInitial_opHi (s : State) : (loadInitial s).opHi = s.opHi := (rfl)
@[simp] theorem loadInitial_opCause (s : State) : (loadInitial s).opCause = s.opCause := (rfl)
@[simp] theorem loadInitial_caller (s : State) : (loadInitial s).caller = s.caller := (rfl)
@[simp] theorem loadInitial_level (s : State) : (loadInitial s).level = s.level := (rfl)
@[simp] theorem loadInitial_stim (s : State) : (loadInitial s).stim = s.stim := (rfl)
@[simp] theorem loadInitial_fresh (s : State) : (loadInitial s).fresh = s.fresh := (rfl)

/-! ### Every byte of `BUF` becomes undef (R38) -/

@[simp] theorem dropBuffer_S (s : State) : (dropBuffer s).S = s.S := (rfl)
@[simp] theorem dropBuffer_CNT (s : State) : (dropBuffer s).CNT = s.CNT := (rfl)
@[simp] theorem dropBuffer_LEN (s : State) : (dropBuffer s).LEN = s.LEN := (rfl)
@[simp] theorem dropBuffer_BUF (s : State) : (dropBuffer s).BUF = [] := (rfl)
@[simp] theorem dropBuffer_a (s : State) : (dropBuffer s).a = s.a := (rfl)
@[simp] theorem dropBuffer_b (s : State) : (dropBuffer s).b = s.b := (rfl)
@[simp] theorem dropBuffer_c (s : State) : (dropBuffer s).c = s.c := (rfl)
@[simp] theorem dropBuffer_d (s : State) : (dropBuffer s).d = s.d := (rfl)
@[simp] theorem dropBuffer_i (s : State) : (dropBuffer s).i = s.i := (rfl)
@[simp] theorem dropBuffer_ROM (s : State) : (dropBuffer s).ROM = s.ROM := (rfl)
@[simp] theorem dropBuffer_DIG (s : State) : (dropBuffer s).DIG = s.DIG := (rfl)
@[simp] theorem dropBuffer_PHASE (s : State) : (dropBuffer s).PHASE = s.PHASE := (rfl)
@[simp] theorem dropBuffer_ERR (s : State) : (dropBuffer s).ERR = s.ERR := (rfl)
@[simp] theorem dropBuffer_ERRLOG (s : State) : (dropBuffer s).ERRLOG = s.ERRLOG := (rfl)
@[simp] theorem dropBuffer_SEQ (s : State) : (dropBuffer s).SEQ = s.SEQ := (rfl)
@[simp] theorem dropBuffer_opData (s : State) : (dropBuffer s).opData = s.opData := (rfl)
@[simp] theorem dropBuffer_opLo (s : State) : (dropBuffer s).opLo = s.opLo := (rfl)
@[simp] theorem dropBuffer_opHi (s : State) : (dropBuffer s).opHi = s.opHi := (rfl)
@[simp] theorem dropBuffer_opCause (s : State) : (dropBuffer s).opCause = s.opCause := (rfl)
@[simp] theorem dropBuffer_caller (s : State) : (dropBuffer s).caller = s.caller := (rfl)
@[simp] theorem dropBuffer_level (s : State) : (dropBuffer s).level = s.level := (rfl)
@[simp] theorem dropBuffer_stim (s : State) : (dropBuffer s).stim = s.stim := (rfl)
@[simp] theorem dropBuffer_fresh (s : State) : (dropBuffer s).fresh = s.fresh := (rfl)

/-! ### INIT (R101) -/

@[simp] theorem createAccumulator_S (s : State) : (createAccumulator s).S = iv := (rfl)
@[simp] theorem createAccumulator_CNT (s : State) : (createAccumulator s).CNT = 0 := (rfl)
@[simp] theorem createAccumulator_LEN (s : State) : (createAccumulator s).LEN = 0 := (rfl)
@[simp] theorem createAccumulator_BUF (s : State) : (createAccumulator s).BUF = [] := (rfl)
@[simp] theorem createAccumulator_a (s : State) : (createAccumulator s).a = s.a := (rfl)
@[simp] theorem createAccumulator_b (s : State) : (createAccumulator s).b = s.b := (rfl)
@[simp] theorem createAccumulator_c (s : State) : (createAccumulator s).c = s.c := (rfl)
@[simp] theorem createAccumulator_d (s : State) : (createAccumulator s).d = s.d := (rfl)
@[simp] theorem createAccumulator_i (s : State) : (createAccumulator s).i = s.i := (rfl)
@[simp] theorem createAccumulator_ROM (s : State) : (createAccumulator s).ROM = s.ROM := (rfl)
@[simp] theorem createAccumulator_DIG (s : State) : (createAccumulator s).DIG = [] := (rfl)
@[simp] theorem createAccumulator_PHASE (s : State) : (createAccumulator s).PHASE = .absorb := (rfl)
@[simp] theorem createAccumulator_ERR (s : State) : (createAccumulator s).ERR = .none := (rfl)
@[simp] theorem createAccumulator_ERRLOG (s : State) : (createAccumulator s).ERRLOG = s.ERRLOG := (rfl)
@[simp] theorem createAccumulator_SEQ (s : State) : (createAccumulator s).SEQ = s.SEQ := (rfl)
@[simp] theorem createAccumulator_opData (s : State) : (createAccumulator s).opData = s.opData := (rfl)
@[simp] theorem createAccumulator_opLo (s : State) : (createAccumulator s).opLo = s.opLo := (rfl)
@[simp] theorem createAccumulator_opHi (s : State) : (createAccumulator s).opHi = s.opHi := (rfl)
@[simp] theorem createAccumulator_opCause (s : State) : (createAccumulator s).opCause = s.opCause := (rfl)
@[simp] theorem createAccumulator_caller (s : State) : (createAccumulator s).caller = s.caller := (rfl)
@[simp] theorem createAccumulator_level (s : State) : (createAccumulator s).level = s.level := (rfl)
@[simp] theorem createAccumulator_stim (s : State) : (createAccumulator s).stim = s.stim := (rfl)
@[simp] theorem createAccumulator_fresh (s : State) : (createAccumulator s).fresh = s.fresh := (rfl)

/-! ### Reset (R200) -/

@[simp] theorem resetCore_S (s : State) : (resetCore s).S = iv := (rfl)
@[simp] theorem resetCore_CNT (s : State) : (resetCore s).CNT = 0 := (rfl)
@[simp] theorem resetCore_LEN (s : State) : (resetCore s).LEN = 0 := (rfl)
@[simp] theorem resetCore_BUF (s : State) : (resetCore s).BUF = [] := (rfl)
@[simp] theorem resetCore_a (s : State) : (resetCore s).a = Config.freeWord s.fresh := (rfl)
@[simp] theorem resetCore_b (s : State) : (resetCore s).b = Config.freeWord (s.fresh + 1) := (rfl)
@[simp] theorem resetCore_c (s : State) : (resetCore s).c = Config.freeWord (s.fresh + 2) := (rfl)
@[simp] theorem resetCore_d (s : State) : (resetCore s).d = Config.freeWord (s.fresh + 3) := (rfl)
@[simp] theorem resetCore_i (s : State) : (resetCore s).i = Config.freeSix (s.fresh + 4) := (rfl)
@[simp] theorem resetCore_ROM (s : State) : (resetCore s).ROM = s.ROM := (rfl)
@[simp] theorem resetCore_DIG (s : State) : (resetCore s).DIG = [] := (rfl)
@[simp] theorem resetCore_PHASE (s : State) : (resetCore s).PHASE = .absorb := (rfl)
@[simp] theorem resetCore_ERR (s : State) : (resetCore s).ERR = .none := (rfl)
@[simp] theorem resetCore_ERRLOG (s : State) : (resetCore s).ERRLOG = 0 := (rfl)
@[simp] theorem resetCore_SEQ (s : State) : (resetCore s).SEQ = .idle := (rfl)
@[simp] theorem resetCore_opData (s : State) : (resetCore s).opData = 0 := (rfl)
@[simp] theorem resetCore_opLo (s : State) : (resetCore s).opLo = 0 := (rfl)
@[simp] theorem resetCore_opHi (s : State) : (resetCore s).opHi = 0 := (rfl)
@[simp] theorem resetCore_opCause (s : State) : (resetCore s).opCause = .misuse := (rfl)
@[simp] theorem resetCore_caller (s : State) : (resetCore s).caller = .upd := (rfl)
@[simp] theorem resetCore_level (s : State) : (resetCore s).level = s.level := (rfl)
@[simp] theorem resetCore_stim (s : State) : (resetCore s).stim = s.stim := (rfl)
@[simp] theorem resetCore_fresh (s : State) : (resetCore s).fresh = s.fresh + 5 := (rfl)

/-! ### FLT (R176) -/

@[simp] theorem raiseFault_S (cause : Cause) (s : State) : (raiseFault cause s).S = s.S := (rfl)
@[simp] theorem raiseFault_CNT (cause : Cause) (s : State) : (raiseFault cause s).CNT = s.CNT := (rfl)
@[simp] theorem raiseFault_LEN (cause : Cause) (s : State) : (raiseFault cause s).LEN = s.LEN := (rfl)
@[simp] theorem raiseFault_BUF (cause : Cause) (s : State) : (raiseFault cause s).BUF = s.BUF := (rfl)
@[simp] theorem raiseFault_a (cause : Cause) (s : State) : (raiseFault cause s).a = s.a := (rfl)
@[simp] theorem raiseFault_b (cause : Cause) (s : State) : (raiseFault cause s).b = s.b := (rfl)
@[simp] theorem raiseFault_c (cause : Cause) (s : State) : (raiseFault cause s).c = s.c := (rfl)
@[simp] theorem raiseFault_d (cause : Cause) (s : State) : (raiseFault cause s).d = s.d := (rfl)
@[simp] theorem raiseFault_i (cause : Cause) (s : State) : (raiseFault cause s).i = s.i := (rfl)
@[simp] theorem raiseFault_ROM (cause : Cause) (s : State) : (raiseFault cause s).ROM = s.ROM := (rfl)
@[simp] theorem raiseFault_DIG (cause : Cause) (s : State) : (raiseFault cause s).DIG = [] := (rfl)
@[simp] theorem raiseFault_PHASE (cause : Cause) (s : State) : (raiseFault cause s).PHASE = .fault := (rfl)
@[simp] theorem raiseFault_ERR (cause : Cause) (s : State) : (raiseFault cause s).ERR = cause.err := (rfl)
@[simp] theorem raiseFault_ERRLOG (cause : Cause) (s : State) : (raiseFault cause s).ERRLOG = s.ERRLOG ||| cause.logBit := (rfl)
@[simp] theorem raiseFault_SEQ (cause : Cause) (s : State) : (raiseFault cause s).SEQ = s.SEQ := (rfl)
@[simp] theorem raiseFault_opData (cause : Cause) (s : State) : (raiseFault cause s).opData = s.opData := (rfl)
@[simp] theorem raiseFault_opLo (cause : Cause) (s : State) : (raiseFault cause s).opLo = s.opLo := (rfl)
@[simp] theorem raiseFault_opHi (cause : Cause) (s : State) : (raiseFault cause s).opHi = s.opHi := (rfl)
@[simp] theorem raiseFault_opCause (cause : Cause) (s : State) : (raiseFault cause s).opCause = s.opCause := (rfl)
@[simp] theorem raiseFault_caller (cause : Cause) (s : State) : (raiseFault cause s).caller = s.caller := (rfl)
@[simp] theorem raiseFault_level (cause : Cause) (s : State) : (raiseFault cause s).level = s.level := (rfl)
@[simp] theorem raiseFault_stim (cause : Cause) (s : State) : (raiseFault cause s).stim = s.stim := (rfl)
@[simp] theorem raiseFault_fresh (cause : Cause) (s : State) : (raiseFault cause s).fresh = s.fresh := (rfl)

/-! ### CBEG (R122) -/

@[simp] theorem beginCompress_S (s : State) : (beginCompress s).S = s.S := (rfl)
@[simp] theorem beginCompress_CNT (s : State) : (beginCompress s).CNT = s.CNT := (rfl)
@[simp] theorem beginCompress_LEN (s : State) : (beginCompress s).LEN = s.LEN := (rfl)
@[simp] theorem beginCompress_BUF (s : State) : (beginCompress s).BUF = s.BUF := (rfl)
@[simp] theorem beginCompress_a (s : State) : (beginCompress s).a = s.S.w0 := (rfl)
@[simp] theorem beginCompress_b (s : State) : (beginCompress s).b = s.S.w1 := (rfl)
@[simp] theorem beginCompress_c (s : State) : (beginCompress s).c = s.S.w2 := (rfl)
@[simp] theorem beginCompress_d (s : State) : (beginCompress s).d = s.S.w3 := (rfl)
@[simp] theorem beginCompress_i (s : State) : (beginCompress s).i = 0 := (rfl)
@[simp] theorem beginCompress_ROM (s : State) : (beginCompress s).ROM = s.ROM := (rfl)
@[simp] theorem beginCompress_DIG (s : State) : (beginCompress s).DIG = s.DIG := (rfl)
@[simp] theorem beginCompress_PHASE (s : State) : (beginCompress s).PHASE = s.PHASE := (rfl)
@[simp] theorem beginCompress_ERR (s : State) : (beginCompress s).ERR = s.ERR := (rfl)
@[simp] theorem beginCompress_ERRLOG (s : State) : (beginCompress s).ERRLOG = s.ERRLOG := (rfl)
@[simp] theorem beginCompress_SEQ (s : State) : (beginCompress s).SEQ = s.SEQ := (rfl)
@[simp] theorem beginCompress_opData (s : State) : (beginCompress s).opData = s.opData := (rfl)
@[simp] theorem beginCompress_opLo (s : State) : (beginCompress s).opLo = s.opLo := (rfl)
@[simp] theorem beginCompress_opHi (s : State) : (beginCompress s).opHi = s.opHi := (rfl)
@[simp] theorem beginCompress_opCause (s : State) : (beginCompress s).opCause = s.opCause := (rfl)
@[simp] theorem beginCompress_caller (s : State) : (beginCompress s).caller = s.caller := (rfl)
@[simp] theorem beginCompress_level (s : State) : (beginCompress s).level = s.level := (rfl)
@[simp] theorem beginCompress_stim (s : State) : (beginCompress s).stim = s.stim := (rfl)
@[simp] theorem beginCompress_fresh (s : State) : (beginCompress s).fresh = s.fresh := (rfl)

/-! ### A step (R124) -/

@[simp] theorem mixStep_S (f : Word) (g : BitVec 4) (rot : BitVec 5) (k : Word) (s : State) : (mixStep f g rot k s).S = s.S := (rfl)
@[simp] theorem mixStep_CNT (f : Word) (g : BitVec 4) (rot : BitVec 5) (k : Word) (s : State) : (mixStep f g rot k s).CNT = s.CNT := (rfl)
@[simp] theorem mixStep_LEN (f : Word) (g : BitVec 4) (rot : BitVec 5) (k : Word) (s : State) : (mixStep f g rot k s).LEN = s.LEN := (rfl)
@[simp] theorem mixStep_BUF (f : Word) (g : BitVec 4) (rot : BitVec 5) (k : Word) (s : State) : (mixStep f g rot k s).BUF = s.BUF := (rfl)
@[simp] theorem mixStep_a (f : Word) (g : BitVec 4) (rot : BitVec 5) (k : Word) (s : State) : (mixStep f g rot k s).a = s.d := (rfl)
@[simp] theorem mixStep_b (f : Word) (g : BitVec 4) (rot : BitVec 5) (k : Word) (s : State) : (mixStep f g rot k s).b = s.b + rotl32 (stepSum f g k s) rot := (rfl)
@[simp] theorem mixStep_c (f : Word) (g : BitVec 4) (rot : BitVec 5) (k : Word) (s : State) : (mixStep f g rot k s).c = s.b := (rfl)
@[simp] theorem mixStep_d (f : Word) (g : BitVec 4) (rot : BitVec 5) (k : Word) (s : State) : (mixStep f g rot k s).d = s.c := (rfl)
@[simp] theorem mixStep_i (f : Word) (g : BitVec 4) (rot : BitVec 5) (k : Word) (s : State) : (mixStep f g rot k s).i = if s.i = 63#6 then Config.freeSix s.fresh else s.i + 1 := (rfl)
@[simp] theorem mixStep_ROM (f : Word) (g : BitVec 4) (rot : BitVec 5) (k : Word) (s : State) : (mixStep f g rot k s).ROM = s.ROM := (rfl)
@[simp] theorem mixStep_DIG (f : Word) (g : BitVec 4) (rot : BitVec 5) (k : Word) (s : State) : (mixStep f g rot k s).DIG = s.DIG := (rfl)
@[simp] theorem mixStep_PHASE (f : Word) (g : BitVec 4) (rot : BitVec 5) (k : Word) (s : State) : (mixStep f g rot k s).PHASE = s.PHASE := (rfl)
@[simp] theorem mixStep_ERR (f : Word) (g : BitVec 4) (rot : BitVec 5) (k : Word) (s : State) : (mixStep f g rot k s).ERR = s.ERR := (rfl)
@[simp] theorem mixStep_ERRLOG (f : Word) (g : BitVec 4) (rot : BitVec 5) (k : Word) (s : State) : (mixStep f g rot k s).ERRLOG = s.ERRLOG := (rfl)
@[simp] theorem mixStep_SEQ (f : Word) (g : BitVec 4) (rot : BitVec 5) (k : Word) (s : State) : (mixStep f g rot k s).SEQ = s.SEQ := (rfl)
@[simp] theorem mixStep_opData (f : Word) (g : BitVec 4) (rot : BitVec 5) (k : Word) (s : State) : (mixStep f g rot k s).opData = s.opData := (rfl)
@[simp] theorem mixStep_opLo (f : Word) (g : BitVec 4) (rot : BitVec 5) (k : Word) (s : State) : (mixStep f g rot k s).opLo = s.opLo := (rfl)
@[simp] theorem mixStep_opHi (f : Word) (g : BitVec 4) (rot : BitVec 5) (k : Word) (s : State) : (mixStep f g rot k s).opHi = s.opHi := (rfl)
@[simp] theorem mixStep_opCause (f : Word) (g : BitVec 4) (rot : BitVec 5) (k : Word) (s : State) : (mixStep f g rot k s).opCause = s.opCause := (rfl)
@[simp] theorem mixStep_caller (f : Word) (g : BitVec 4) (rot : BitVec 5) (k : Word) (s : State) : (mixStep f g rot k s).caller = s.caller := (rfl)
@[simp] theorem mixStep_level (f : Word) (g : BitVec 4) (rot : BitVec 5) (k : Word) (s : State) : (mixStep f g rot k s).level = s.level := (rfl)
@[simp] theorem mixStep_stim (f : Word) (g : BitVec 4) (rot : BitVec 5) (k : Word) (s : State) : (mixStep f g rot k s).stim = s.stim := (rfl)
@[simp] theorem mixStep_fresh (f : Word) (g : BitVec 4) (rot : BitVec 5) (k : Word) (s : State) : (mixStep f g rot k s).fresh = if s.i = 63#6 then s.fresh + 1 else s.fresh := (rfl)

/-! ### CEND (R129) -/

@[simp] theorem endCompress_S (s : State) : (endCompress s).S = feedForward s := (rfl)
@[simp] theorem endCompress_CNT (s : State) : (endCompress s).CNT = s.CNT := (rfl)
@[simp] theorem endCompress_LEN (s : State) : (endCompress s).LEN = s.LEN := (rfl)
@[simp] theorem endCompress_BUF (s : State) : (endCompress s).BUF = s.BUF := (rfl)
@[simp] theorem endCompress_a (s : State) : (endCompress s).a = Config.freeWord s.fresh := (rfl)
@[simp] theorem endCompress_b (s : State) : (endCompress s).b = Config.freeWord (s.fresh + 1) := (rfl)
@[simp] theorem endCompress_c (s : State) : (endCompress s).c = Config.freeWord (s.fresh + 2) := (rfl)
@[simp] theorem endCompress_d (s : State) : (endCompress s).d = Config.freeWord (s.fresh + 3) := (rfl)
@[simp] theorem endCompress_i (s : State) : (endCompress s).i = Config.freeSix (s.fresh + 4) := (rfl)
@[simp] theorem endCompress_ROM (s : State) : (endCompress s).ROM = s.ROM := (rfl)
@[simp] theorem endCompress_DIG (s : State) : (endCompress s).DIG = s.DIG := (rfl)
@[simp] theorem endCompress_PHASE (s : State) : (endCompress s).PHASE = s.PHASE := (rfl)
@[simp] theorem endCompress_ERR (s : State) : (endCompress s).ERR = s.ERR := (rfl)
@[simp] theorem endCompress_ERRLOG (s : State) : (endCompress s).ERRLOG = s.ERRLOG := (rfl)
@[simp] theorem endCompress_SEQ (s : State) : (endCompress s).SEQ = s.SEQ := (rfl)
@[simp] theorem endCompress_opData (s : State) : (endCompress s).opData = s.opData := (rfl)
@[simp] theorem endCompress_opLo (s : State) : (endCompress s).opLo = s.opLo := (rfl)
@[simp] theorem endCompress_opHi (s : State) : (endCompress s).opHi = s.opHi := (rfl)
@[simp] theorem endCompress_opCause (s : State) : (endCompress s).opCause = s.opCause := (rfl)
@[simp] theorem endCompress_caller (s : State) : (endCompress s).caller = s.caller := (rfl)
@[simp] theorem endCompress_level (s : State) : (endCompress s).level = s.level := (rfl)
@[simp] theorem endCompress_stim (s : State) : (endCompress s).stim = s.stim := (rfl)
@[simp] theorem endCompress_fresh (s : State) : (endCompress s).fresh = s.fresh + 5 := (rfl)

/-! ### ABSB (R107) -/

@[simp] theorem absorbByte_S (x : Byte) (s : State) : (absorbByte x s).S = s.S := (rfl)
@[simp] theorem absorbByte_CNT (x : Byte) (s : State) : (absorbByte x s).CNT = s.CNT + 1 := (rfl)
@[simp] theorem absorbByte_LEN (x : Byte) (s : State) : (absorbByte x s).LEN = s.LEN + 1 := (rfl)
@[simp] theorem absorbByte_BUF (x : Byte) (s : State) : (absorbByte x s).BUF = s.BUF.write s.LEN.toNat x := (rfl)
@[simp] theorem absorbByte_a (x : Byte) (s : State) : (absorbByte x s).a = s.a := (rfl)
@[simp] theorem absorbByte_b (x : Byte) (s : State) : (absorbByte x s).b = s.b := (rfl)
@[simp] theorem absorbByte_c (x : Byte) (s : State) : (absorbByte x s).c = s.c := (rfl)
@[simp] theorem absorbByte_d (x : Byte) (s : State) : (absorbByte x s).d = s.d := (rfl)
@[simp] theorem absorbByte_i (x : Byte) (s : State) : (absorbByte x s).i = s.i := (rfl)
@[simp] theorem absorbByte_ROM (x : Byte) (s : State) : (absorbByte x s).ROM = s.ROM := (rfl)
@[simp] theorem absorbByte_DIG (x : Byte) (s : State) : (absorbByte x s).DIG = s.DIG := (rfl)
@[simp] theorem absorbByte_PHASE (x : Byte) (s : State) : (absorbByte x s).PHASE = s.PHASE := (rfl)
@[simp] theorem absorbByte_ERR (x : Byte) (s : State) : (absorbByte x s).ERR = s.ERR := (rfl)
@[simp] theorem absorbByte_ERRLOG (x : Byte) (s : State) : (absorbByte x s).ERRLOG = s.ERRLOG := (rfl)
@[simp] theorem absorbByte_SEQ (x : Byte) (s : State) : (absorbByte x s).SEQ = s.SEQ := (rfl)
@[simp] theorem absorbByte_opData (x : Byte) (s : State) : (absorbByte x s).opData = s.opData := (rfl)
@[simp] theorem absorbByte_opLo (x : Byte) (s : State) : (absorbByte x s).opLo = s.opLo := (rfl)
@[simp] theorem absorbByte_opHi (x : Byte) (s : State) : (absorbByte x s).opHi = s.opHi := (rfl)
@[simp] theorem absorbByte_opCause (x : Byte) (s : State) : (absorbByte x s).opCause = s.opCause := (rfl)
@[simp] theorem absorbByte_caller (x : Byte) (s : State) : (absorbByte x s).caller = s.caller := (rfl)
@[simp] theorem absorbByte_level (x : Byte) (s : State) : (absorbByte x s).level = s.level := (rfl)
@[simp] theorem absorbByte_stim (x : Byte) (s : State) : (absorbByte x s).stim = s.stim := (rfl)
@[simp] theorem absorbByte_fresh (x : Byte) (s : State) : (absorbByte x s).fresh = s.fresh := (rfl)

/-! ### PAD80 (R151) -/

@[simp] theorem pad80_S (s : State) : (pad80 s).S = s.S := (rfl)
@[simp] theorem pad80_CNT (s : State) : (pad80 s).CNT = s.CNT := (rfl)
@[simp] theorem pad80_LEN (s : State) : (pad80 s).LEN = s.LEN := (rfl)
@[simp] theorem pad80_BUF (s : State) : (pad80 s).BUF = s.BUF.write s.LEN.toNat 0x80 := (rfl)
@[simp] theorem pad80_a (s : State) : (pad80 s).a = s.a := (rfl)
@[simp] theorem pad80_b (s : State) : (pad80 s).b = s.b := (rfl)
@[simp] theorem pad80_c (s : State) : (pad80 s).c = s.c := (rfl)
@[simp] theorem pad80_d (s : State) : (pad80 s).d = s.d := (rfl)
@[simp] theorem pad80_i (s : State) : (pad80 s).i = s.i := (rfl)
@[simp] theorem pad80_ROM (s : State) : (pad80 s).ROM = s.ROM := (rfl)
@[simp] theorem pad80_DIG (s : State) : (pad80 s).DIG = s.DIG := (rfl)
@[simp] theorem pad80_PHASE (s : State) : (pad80 s).PHASE = s.PHASE := (rfl)
@[simp] theorem pad80_ERR (s : State) : (pad80 s).ERR = s.ERR := (rfl)
@[simp] theorem pad80_ERRLOG (s : State) : (pad80 s).ERRLOG = s.ERRLOG := (rfl)
@[simp] theorem pad80_SEQ (s : State) : (pad80 s).SEQ = s.SEQ := (rfl)
@[simp] theorem pad80_opData (s : State) : (pad80 s).opData = s.opData := (rfl)
@[simp] theorem pad80_opLo (s : State) : (pad80 s).opLo = s.opLo := (rfl)
@[simp] theorem pad80_opHi (s : State) : (pad80 s).opHi = s.opHi := (rfl)
@[simp] theorem pad80_opCause (s : State) : (pad80 s).opCause = s.opCause := (rfl)
@[simp] theorem pad80_caller (s : State) : (pad80 s).caller = s.caller := (rfl)
@[simp] theorem pad80_level (s : State) : (pad80 s).level = s.level := (rfl)
@[simp] theorem pad80_stim (s : State) : (pad80 s).stim = s.stim := (rfl)
@[simp] theorem pad80_fresh (s : State) : (pad80 s).fresh = s.fresh := (rfl)

/-! ### PADZ (R152) -/

@[simp] theorem padZeros_S (lo hi : Nat) (s : State) : (padZeros lo hi s).S = s.S := (rfl)
@[simp] theorem padZeros_CNT (lo hi : Nat) (s : State) : (padZeros lo hi s).CNT = s.CNT := (rfl)
@[simp] theorem padZeros_LEN (lo hi : Nat) (s : State) : (padZeros lo hi s).LEN = s.LEN := (rfl)
@[simp] theorem padZeros_BUF (lo hi : Nat) (s : State) : (padZeros lo hi s).BUF = s.BUF.zeroFill lo hi := (rfl)
@[simp] theorem padZeros_a (lo hi : Nat) (s : State) : (padZeros lo hi s).a = s.a := (rfl)
@[simp] theorem padZeros_b (lo hi : Nat) (s : State) : (padZeros lo hi s).b = s.b := (rfl)
@[simp] theorem padZeros_c (lo hi : Nat) (s : State) : (padZeros lo hi s).c = s.c := (rfl)
@[simp] theorem padZeros_d (lo hi : Nat) (s : State) : (padZeros lo hi s).d = s.d := (rfl)
@[simp] theorem padZeros_i (lo hi : Nat) (s : State) : (padZeros lo hi s).i = s.i := (rfl)
@[simp] theorem padZeros_ROM (lo hi : Nat) (s : State) : (padZeros lo hi s).ROM = s.ROM := (rfl)
@[simp] theorem padZeros_DIG (lo hi : Nat) (s : State) : (padZeros lo hi s).DIG = s.DIG := (rfl)
@[simp] theorem padZeros_PHASE (lo hi : Nat) (s : State) : (padZeros lo hi s).PHASE = s.PHASE := (rfl)
@[simp] theorem padZeros_ERR (lo hi : Nat) (s : State) : (padZeros lo hi s).ERR = s.ERR := (rfl)
@[simp] theorem padZeros_ERRLOG (lo hi : Nat) (s : State) : (padZeros lo hi s).ERRLOG = s.ERRLOG := (rfl)
@[simp] theorem padZeros_SEQ (lo hi : Nat) (s : State) : (padZeros lo hi s).SEQ = s.SEQ := (rfl)
@[simp] theorem padZeros_opData (lo hi : Nat) (s : State) : (padZeros lo hi s).opData = s.opData := (rfl)
@[simp] theorem padZeros_opLo (lo hi : Nat) (s : State) : (padZeros lo hi s).opLo = s.opLo := (rfl)
@[simp] theorem padZeros_opHi (lo hi : Nat) (s : State) : (padZeros lo hi s).opHi = s.opHi := (rfl)
@[simp] theorem padZeros_opCause (lo hi : Nat) (s : State) : (padZeros lo hi s).opCause = s.opCause := (rfl)
@[simp] theorem padZeros_caller (lo hi : Nat) (s : State) : (padZeros lo hi s).caller = s.caller := (rfl)
@[simp] theorem padZeros_level (lo hi : Nat) (s : State) : (padZeros lo hi s).level = s.level := (rfl)
@[simp] theorem padZeros_stim (lo hi : Nat) (s : State) : (padZeros lo hi s).stim = s.stim := (rfl)
@[simp] theorem padZeros_fresh (lo hi : Nat) (s : State) : (padZeros lo hi s).fresh = s.fresh := (rfl)

/-! ### PADL (R153) -/

@[simp] theorem padLength_S (s : State) : (padLength s).S = s.S := (rfl)
@[simp] theorem padLength_CNT (s : State) : (padLength s).CNT = s.CNT := (rfl)
@[simp] theorem padLength_LEN (s : State) : (padLength s).LEN = s.LEN := (rfl)
@[simp] theorem padLength_BUF (s : State) : (padLength s).BUF = s.BUF.writeBytes 56 (bytesLE 8 (bitCount s)) := (rfl)
@[simp] theorem padLength_a (s : State) : (padLength s).a = s.a := (rfl)
@[simp] theorem padLength_b (s : State) : (padLength s).b = s.b := (rfl)
@[simp] theorem padLength_c (s : State) : (padLength s).c = s.c := (rfl)
@[simp] theorem padLength_d (s : State) : (padLength s).d = s.d := (rfl)
@[simp] theorem padLength_i (s : State) : (padLength s).i = s.i := (rfl)
@[simp] theorem padLength_ROM (s : State) : (padLength s).ROM = s.ROM := (rfl)
@[simp] theorem padLength_DIG (s : State) : (padLength s).DIG = s.DIG := (rfl)
@[simp] theorem padLength_PHASE (s : State) : (padLength s).PHASE = s.PHASE := (rfl)
@[simp] theorem padLength_ERR (s : State) : (padLength s).ERR = s.ERR := (rfl)
@[simp] theorem padLength_ERRLOG (s : State) : (padLength s).ERRLOG = s.ERRLOG := (rfl)
@[simp] theorem padLength_SEQ (s : State) : (padLength s).SEQ = s.SEQ := (rfl)
@[simp] theorem padLength_opData (s : State) : (padLength s).opData = s.opData := (rfl)
@[simp] theorem padLength_opLo (s : State) : (padLength s).opLo = s.opLo := (rfl)
@[simp] theorem padLength_opHi (s : State) : (padLength s).opHi = s.opHi := (rfl)
@[simp] theorem padLength_opCause (s : State) : (padLength s).opCause = s.opCause := (rfl)
@[simp] theorem padLength_caller (s : State) : (padLength s).caller = s.caller := (rfl)
@[simp] theorem padLength_level (s : State) : (padLength s).level = s.level := (rfl)
@[simp] theorem padLength_stim (s : State) : (padLength s).stim = s.stim := (rfl)
@[simp] theorem padLength_fresh (s : State) : (padLength s).fresh = s.fresh := (rfl)

/-! ### SER (R155) -/

@[simp] theorem serialise_S (s : State) : (serialise s).S = s.S := (rfl)
@[simp] theorem serialise_CNT (s : State) : (serialise s).CNT = s.CNT := (rfl)
@[simp] theorem serialise_LEN (s : State) : (serialise s).LEN = s.LEN := (rfl)
@[simp] theorem serialise_BUF (s : State) : (serialise s).BUF = s.BUF := (rfl)
@[simp] theorem serialise_a (s : State) : (serialise s).a = s.a := (rfl)
@[simp] theorem serialise_b (s : State) : (serialise s).b = s.b := (rfl)
@[simp] theorem serialise_c (s : State) : (serialise s).c = s.c := (rfl)
@[simp] theorem serialise_d (s : State) : (serialise s).d = s.d := (rfl)
@[simp] theorem serialise_i (s : State) : (serialise s).i = s.i := (rfl)
@[simp] theorem serialise_ROM (s : State) : (serialise s).ROM = s.ROM := (rfl)
@[simp] theorem serialise_DIG (s : State) : (serialise s).DIG = s.DIG.writeBytes 0 (serialBytes s.S) := (rfl)
@[simp] theorem serialise_PHASE (s : State) : (serialise s).PHASE = .done := (rfl)
@[simp] theorem serialise_ERR (s : State) : (serialise s).ERR = s.ERR := (rfl)
@[simp] theorem serialise_ERRLOG (s : State) : (serialise s).ERRLOG = s.ERRLOG := (rfl)
@[simp] theorem serialise_SEQ (s : State) : (serialise s).SEQ = s.SEQ := (rfl)
@[simp] theorem serialise_opData (s : State) : (serialise s).opData = s.opData := (rfl)
@[simp] theorem serialise_opLo (s : State) : (serialise s).opLo = s.opLo := (rfl)
@[simp] theorem serialise_opHi (s : State) : (serialise s).opHi = s.opHi := (rfl)
@[simp] theorem serialise_opCause (s : State) : (serialise s).opCause = s.opCause := (rfl)
@[simp] theorem serialise_caller (s : State) : (serialise s).caller = s.caller := (rfl)
@[simp] theorem serialise_level (s : State) : (serialise s).level = s.level := (rfl)
@[simp] theorem serialise_stim (s : State) : (serialise s).stim = s.stim := (rfl)
@[simp] theorem serialise_fresh (s : State) : (serialise s).fresh = s.fresh := (rfl)

end Sys2Proof.Machine
end

