-- ==== Sys2Proof/Laws/Ops.lean ====
section
/-! SUPPORT. What the shared operations do, said once: every meaning answers a next state; Compress changes S and the
scratch registers and nothing else (R120); the sequencer's advance changes the sequencer's fields, after LDIV BUF, and after SER LEN.
A step of one instance of a system is that instance's alone. -/

namespace Sys2Proof.Machine

/-! ### Outcomes -/

/-- Every instruction completes in every state. -/
theorem exec_next (i : Instr) (s : State) : ∃ t, exec i s = .next t := by
  cases i <;> exact ⟨_, rfl⟩

/-- A step of the busy core is its micro-op followed by the advance. -/
theorem busyStep_of_decode {s t : State} {i : Instr} (h : decode (fetchCode s) = .instr i) (ht : exec i s = .next t) :
    busyStep s = .next (advance s t) := by
  simp [busyStep, h, ht, advanceOutcome]

/-! ### The steps of a compression -/

@[simp] theorem romSteps_zero (s : State) : romSteps 0 s = s := by rw [romSteps]

theorem romSteps_succ (n : Nat) (s : State) : romSteps (n + 1) s = romSteps n (romStep s) := by rw [romSteps]

/-- Steps compose: the last of `n + 1` steps is one more step after `n` (R134). -/
theorem romSteps_succ' (n : Nat) (s : State) : romSteps (n + 1) s = romStep (romSteps n s) := by
  induction n generalizing s with
  | zero => simp [romSteps_succ]
  | succ n ih => rw [romSteps_succ, ih, romSteps_succ]

@[simp] theorem romStep_S (s : State) : (romStep s).S = s.S := (rfl)
@[simp] theorem romStep_CNT (s : State) : (romStep s).CNT = s.CNT := (rfl)
@[simp] theorem romStep_LEN (s : State) : (romStep s).LEN = s.LEN := (rfl)
@[simp] theorem romStep_BUF (s : State) : (romStep s).BUF = s.BUF := (rfl)
@[simp] theorem romStep_ROM (s : State) : (romStep s).ROM = s.ROM := (rfl)
@[simp] theorem romStep_DIG (s : State) : (romStep s).DIG = s.DIG := (rfl)
@[simp] theorem romStep_PHASE (s : State) : (romStep s).PHASE = s.PHASE := (rfl)
@[simp] theorem romStep_ERR (s : State) : (romStep s).ERR = s.ERR := (rfl)
@[simp] theorem romStep_ERRLOG (s : State) : (romStep s).ERRLOG = s.ERRLOG := (rfl)
@[simp] theorem romStep_SEQ (s : State) : (romStep s).SEQ = s.SEQ := (rfl)
@[simp] theorem romStep_opData (s : State) : (romStep s).opData = s.opData := (rfl)
@[simp] theorem romStep_opLo (s : State) : (romStep s).opLo = s.opLo := (rfl)
@[simp] theorem romStep_opHi (s : State) : (romStep s).opHi = s.opHi := (rfl)
@[simp] theorem romStep_opCause (s : State) : (romStep s).opCause = s.opCause := (rfl)
@[simp] theorem romStep_caller (s : State) : (romStep s).caller = s.caller := (rfl)
@[simp] theorem romStep_level (s : State) : (romStep s).level = s.level := (rfl)
@[simp] theorem romStep_stim (s : State) : (romStep s).stim = s.stim := (rfl)

@[simp] theorem romSteps_S (n : Nat) (s : State) : (romSteps n s).S = s.S := by
  induction n generalizing s with
  | zero => simp
  | succ n ih => rw [romSteps_succ, ih, romStep_S]

@[simp] theorem romSteps_CNT (n : Nat) (s : State) : (romSteps n s).CNT = s.CNT := by
  induction n generalizing s with
  | zero => simp
  | succ n ih => rw [romSteps_succ, ih, romStep_CNT]

@[simp] theorem romSteps_LEN (n : Nat) (s : State) : (romSteps n s).LEN = s.LEN := by
  induction n generalizing s with
  | zero => simp
  | succ n ih => rw [romSteps_succ, ih, romStep_LEN]

@[simp] theorem romSteps_BUF (n : Nat) (s : State) : (romSteps n s).BUF = s.BUF := by
  induction n generalizing s with
  | zero => simp
  | succ n ih => rw [romSteps_succ, ih, romStep_BUF]

@[simp] theorem romSteps_ROM (n : Nat) (s : State) : (romSteps n s).ROM = s.ROM := by
  induction n generalizing s with
  | zero => simp
  | succ n ih => rw [romSteps_succ, ih, romStep_ROM]

@[simp] theorem romSteps_DIG (n : Nat) (s : State) : (romSteps n s).DIG = s.DIG := by
  induction n generalizing s with
  | zero => simp
  | succ n ih => rw [romSteps_succ, ih, romStep_DIG]

@[simp] theorem romSteps_PHASE (n : Nat) (s : State) : (romSteps n s).PHASE = s.PHASE := by
  induction n generalizing s with
  | zero => simp
  | succ n ih => rw [romSteps_succ, ih, romStep_PHASE]

@[simp] theorem romSteps_ERR (n : Nat) (s : State) : (romSteps n s).ERR = s.ERR := by
  induction n generalizing s with
  | zero => simp
  | succ n ih => rw [romSteps_succ, ih, romStep_ERR]

@[simp] theorem romSteps_ERRLOG (n : Nat) (s : State) : (romSteps n s).ERRLOG = s.ERRLOG := by
  induction n generalizing s with
  | zero => simp
  | succ n ih => rw [romSteps_succ, ih, romStep_ERRLOG]

@[simp] theorem romSteps_SEQ (n : Nat) (s : State) : (romSteps n s).SEQ = s.SEQ := by
  induction n generalizing s with
  | zero => simp
  | succ n ih => rw [romSteps_succ, ih, romStep_SEQ]

@[simp] theorem romSteps_opData (n : Nat) (s : State) : (romSteps n s).opData = s.opData := by
  induction n generalizing s with
  | zero => simp
  | succ n ih => rw [romSteps_succ, ih, romStep_opData]

@[simp] theorem romSteps_opLo (n : Nat) (s : State) : (romSteps n s).opLo = s.opLo := by
  induction n generalizing s with
  | zero => simp
  | succ n ih => rw [romSteps_succ, ih, romStep_opLo]

@[simp] theorem romSteps_opHi (n : Nat) (s : State) : (romSteps n s).opHi = s.opHi := by
  induction n generalizing s with
  | zero => simp
  | succ n ih => rw [romSteps_succ, ih, romStep_opHi]

@[simp] theorem romSteps_opCause (n : Nat) (s : State) : (romSteps n s).opCause = s.opCause := by
  induction n generalizing s with
  | zero => simp
  | succ n ih => rw [romSteps_succ, ih, romStep_opCause]

@[simp] theorem romSteps_caller (n : Nat) (s : State) : (romSteps n s).caller = s.caller := by
  induction n generalizing s with
  | zero => simp
  | succ n ih => rw [romSteps_succ, ih, romStep_caller]

@[simp] theorem romSteps_level (n : Nat) (s : State) : (romSteps n s).level = s.level := by
  induction n generalizing s with
  | zero => simp
  | succ n ih => rw [romSteps_succ, ih, romStep_level]

@[simp] theorem romSteps_stim (n : Nat) (s : State) : (romSteps n s).stim = s.stim := by
  induction n generalizing s with
  | zero => simp
  | succ n ih => rw [romSteps_succ, ih, romStep_stim]

/-- During the steps before the one with i = 63 no register becomes undef. -/
theorem romStep_of_lt {s : State} (h : s.i ≠ 63#6) : (romStep s).i = s.i + 1 ∧ (romStep s).fresh = s.fresh := by
  simp only [romStep, mixStep_i, mixStep_fresh, if_neg h, and_self]

/-- The steps neither read nor write SEQ. Rewrite with this before two states after 64 steps are compared: the comparison by
unfolding does not end. -/
theorem romSteps_withSEQ (n : Nat) (s : State) (q : Seq) :
    romSteps n { s with SEQ := q } = { romSteps n s with SEQ := q } := by
  induction n generalizing s with
  | zero => simp
  | succ n ih => rw [romSteps_succ, romSteps_succ]; exact ih (romStep s)

theorem romSteps_withSEQ_twice (n : Nat) (s : State) (q r : Seq) :
    { romSteps n { s with SEQ := q } with SEQ := r } = { romSteps n s with SEQ := r } := by
  rw [romSteps_withSEQ]

/-- The steps neither read nor write the host's events. -/
theorem romSteps_withStim (n : Nat) (s : State) (stim : List HostEvent) :
    romSteps n { s with stim := stim } = { romSteps n s with stim := stim } := by
  induction n generalizing s with
  | zero => simp
  | succ n ih => rw [romSteps_succ, romSteps_succ]; exact ih (romStep s)

/-! ### Compress -/

@[simp] theorem compress_CNT (s : State) : (compress s).CNT = s.CNT := by simp [compress]
@[simp] theorem compress_LEN (s : State) : (compress s).LEN = s.LEN := by simp [compress]
@[simp] theorem compress_BUF (s : State) : (compress s).BUF = s.BUF := by simp [compress]
@[simp] theorem compress_ROM (s : State) : (compress s).ROM = s.ROM := by simp [compress]
@[simp] theorem compress_DIG (s : State) : (compress s).DIG = s.DIG := by simp [compress]
@[simp] theorem compress_PHASE (s : State) : (compress s).PHASE = s.PHASE := by simp [compress]
@[simp] theorem compress_ERR (s : State) : (compress s).ERR = s.ERR := by simp [compress]
@[simp] theorem compress_ERRLOG (s : State) : (compress s).ERRLOG = s.ERRLOG := by simp [compress]
@[simp] theorem compress_SEQ (s : State) : (compress s).SEQ = s.SEQ := by simp [compress]
@[simp] theorem compress_opData (s : State) : (compress s).opData = s.opData := by simp [compress]
@[simp] theorem compress_opLo (s : State) : (compress s).opLo = s.opLo := by simp [compress]
@[simp] theorem compress_opHi (s : State) : (compress s).opHi = s.opHi := by simp [compress]
@[simp] theorem compress_opCause (s : State) : (compress s).opCause = s.opCause := by simp [compress]
@[simp] theorem compress_caller (s : State) : (compress s).caller = s.caller := by simp [compress]
@[simp] theorem compress_level (s : State) : (compress s).level = s.level := by simp [compress]
@[simp] theorem compress_stim (s : State) : (compress s).stim = s.stim := by simp [compress]

/-! ### The sequencer's advance -/

@[simp] theorem advance_S (s t : State) : (advance s t).S = t.S := by
  unfold advance; split <;> (try split) <;> rfl

@[simp] theorem advance_CNT (s t : State) : (advance s t).CNT = t.CNT := by
  unfold advance; split <;> (try split) <;> rfl

@[simp] theorem advance_a (s t : State) : (advance s t).a = t.a := by
  unfold advance; split <;> (try split) <;> rfl

@[simp] theorem advance_b (s t : State) : (advance s t).b = t.b := by
  unfold advance; split <;> (try split) <;> rfl

@[simp] theorem advance_c (s t : State) : (advance s t).c = t.c := by
  unfold advance; split <;> (try split) <;> rfl

@[simp] theorem advance_d (s t : State) : (advance s t).d = t.d := by
  unfold advance; split <;> (try split) <;> rfl

@[simp] theorem advance_i (s t : State) : (advance s t).i = t.i := by
  unfold advance; split <;> (try split) <;> rfl

@[simp] theorem advance_ROM (s t : State) : (advance s t).ROM = t.ROM := by
  unfold advance; split <;> (try split) <;> rfl

@[simp] theorem advance_DIG (s t : State) : (advance s t).DIG = t.DIG := by
  unfold advance; split <;> (try split) <;> rfl

@[simp] theorem advance_PHASE (s t : State) : (advance s t).PHASE = t.PHASE := by
  unfold advance; split <;> (try split) <;> rfl

@[simp] theorem advance_ERR (s t : State) : (advance s t).ERR = t.ERR := by
  unfold advance; split <;> (try split) <;> rfl

@[simp] theorem advance_ERRLOG (s t : State) : (advance s t).ERRLOG = t.ERRLOG := by
  unfold advance; split <;> (try split) <;> rfl

@[simp] theorem advance_opData (s t : State) : (advance s t).opData = t.opData := by
  unfold advance; split <;> (try split) <;> rfl

@[simp] theorem advance_opCause (s t : State) : (advance s t).opCause = t.opCause := by
  unfold advance; split <;> (try split) <;> rfl

@[simp] theorem advance_level (s t : State) : (advance s t).level = t.level := by
  unfold advance; split <;> (try split) <;> rfl

@[simp] theorem advance_stim (s t : State) : (advance s t).stim = t.stim := by
  unfold advance; split <;> (try split) <;> rfl

/-- The advance writes BUF only after LDIV, where INIT leaves every byte undef (R38). -/
theorem advance_BUF {s : State} (t : State) (h : s.SEQ ≠ .ldiv) : (advance s t).BUF = t.BUF := by
  unfold advance; split <;> (try split) <;> first | rfl | contradiction

/-- INIT ends with BUF undef (R38). -/
theorem advance_BUF_ldiv {s : State} (t : State) (h : s.SEQ = .ldiv) : (advance s t).BUF = [] := by
  simp [advance, h]

/-- The advance writes LEN only after SER, where FIN leaves it undef (R29). -/
theorem advance_LEN {s : State} (t : State) (h : s.SEQ ≠ .ser) : (advance s t).LEN = t.LEN := by
  unfold advance; split <;> (try split) <;> first | rfl | contradiction

/-! ### Systems of instances (R183, R72) -/

/-- A step of one instance leaves every other as it is. -/
theorem stepInstance_other {j k : Nat} (sys : System) (h : j ≠ k) : (stepInstance k sys)[j]? = sys[j]? := by
  unfold stepInstance
  split
  · rfl
  · split
    · exact List.getElem?_set_ne h.symm
    · rfl
    · rfl

/-- A step of an instance is its step. -/
theorem stepInstance_self {k : Nat} {sys : System} {s t : State} (hs : sys[k]? = some s) (ht : step s = .next t) :
    (stepInstance k sys)[k]? = some t := by
  have hk : k < sys.length := (List.getElem?_eq_some_iff.mp hs).1
  unfold stepInstance
  rw [hs]
  simp only [ht, List.getElem?_set_self hk]

/-- Steps of two different instances commute. -/
theorem stepInstance_comm {j k : Nat} (sys : System) (h : j ≠ k) :
    stepInstance j (stepInstance k sys) = stepInstance k (stepInstance j sys) := by
  have hj := stepInstance_other sys h
  have hk := stepInstance_other sys h.symm
  rw [stepInstance, hj, stepInstance.eq_def k (stepInstance j sys), hk]
  unfold stepInstance
  cases sys[j]? with
  | none => cases sys[k]? <;> rfl
  | some u =>
    cases sys[k]? with
    | none => rfl
    | some v => cases hu : step u <;> cases hv : step v <;> simp only [hu, hv, List.set_comm _ _ h]

/-- A schedule in which instance `k` has no turn leaves it as it is. -/
theorem runSchedule_other {k : Nat} (schedule : List Nat) (sys : System) (h : k ∉ schedule) :
    (runSchedule schedule sys)[k]? = sys[k]? := by
  induction schedule generalizing sys with
  | nil => rfl
  | cons j rest ih =>
    rw [List.mem_cons, not_or] at h
    rw [runSchedule, ih _ h.2, stepInstance_other sys h.1]

end Sys2Proof.Machine
end

