-- ==== Sys2Proof/Laws/PerInstr.lean ====
section
/-! SUPPORT. The family of statements made per instruction: an instruction is encoded in a word of its own format
(30_encoding.md R80, R84, R86; the column `format` of spec/opcode_table.json). -/

namespace Sys2Proof.Laws.EncodedFormat

/-- The word that encodes `i` is of the format the opcode table gives its row. -/
def Statement (i : Instr) : Prop := (encode i).format = i.format

theorem init : Statement .init := rfl

theorem upd (data : BitVec 8) : Statement (.upd data) := rfl

theorem fin : Statement .fin := rfl

theorem stepF (g : BitVec 4) (rot : BitVec 5) (k : BitVec 32) : Statement (.stepF g rot k) := rfl

theorem stepG (g : BitVec 4) (rot : BitVec 5) (k : BitVec 32) : Statement (.stepG g rot k) := rfl

theorem stepH (g : BitVec 4) (rot : BitVec 5) (k : BitVec 32) : Statement (.stepH g rot k) := rfl

theorem stepI (g : BitVec 4) (rot : BitVec 5) (k : BitVec 32) : Statement (.stepI g rot k) := rfl

theorem ldiv : Statement .ldiv := rfl

theorem absb : Statement .absb := rfl

theorem cbeg : Statement .cbeg := rfl

theorem cend : Statement .cend := rfl

theorem pad80 : Statement .pad80 := rfl

theorem padz : Statement .padz := rfl

theorem padl : Statement .padl := rfl

theorem ser : Statement .ser := rfl

theorem flt : Statement .flt := rfl

end Sys2Proof.Laws.EncodedFormat
end

