-- ==== Sys2Proof/Laws/Step.lean ====
section
/-! SUPPORT. What a step can do, said once: the host's edges (reset, quiet, a command word at either level) and the micro-op
of a busy core with its effect. -/

namespace Sys2Proof.Machine

/-! ### Command words -/

/-- The dispatch of a word looks at PHASE and CNT only. -/
theorem commandAction_congr {s t : State} (w : BitVec 10) (hp : t.PHASE = s.PHASE) (hc : t.CNT = s.CNT) :
    commandAction w t = commandAction w s := by
  simp only [commandAction, initAction, updAction, finAction, illegalAction, hp, hc]

/-- A command word decodes to a host command or not at all. -/
theorem decodeCmd_cases (w : BitVec 10) :
    decodeCmd w = .instr (.upd (w.extractLsb' 0 8)) ∨ decodeCmd w = .instr .init ∨ decodeCmd w = .instr .fin ∨
      decodeCmd w = .rejected (.reservedCommand w) := by
  unfold decodeCmd
  split
  · exact .inl rfl
  · split
    · exact .inr (.inl rfl)
    · split
      · exact .inr (.inr (.inl rfl))
      · exact .inr (.inr (.inr rfl))

/-- Acceptance at the command level is the whole transition of R100 at once. -/
theorem acceptWord_command {s : State} (w : BitVec 10) (h : s.level = .command) :
    acceptWord w s = .next (perform (commandAction w s) s) := by
  rcases decodeCmd_cases w with hd | hd | hd | hd <;>
    simp [acceptWord, h, decode, hd, commandAction, exec, execUpd, execInit, execFin, reservedWord]

/-- Acceptance at the micro-op level starts the command. -/
theorem acceptWord_micro {s : State} (w : BitVec 10) (h : s.level = .micro) :
    acceptWord w s = .next (startAction (commandAction w s) s) := by
  simp [acceptWord, h]

/-! ### The effect of the busy core's micro-op -/

/-- The state after the micro-op that SEQ names, before the advance; a step's row is the one in the ROM at `i`. -/
def microEffect (s : State) : State :=
  match s.SEQ with
  | .idle => s
  | .ldiv => loadInitial s
  | .absb => absorbByte s.opData s
  | .cbeg => beginCompress s
  | .stepF => romStep s
  | .stepG => romStep s
  | .stepH => romStep s
  | .stepI => romStep s
  | .cend => endCompress s
  | .pad80 => pad80 s
  | .padz => padZeros s.opLo.toNat s.opHi.toNat s
  | .padl => padLength s
  | .ser => serialise s
  | .flt => raiseFault s.opCause s

/-- The instruction a ROM row decodes to mixes with the row's own round function and fields (R85, R124). -/
theorem exec_decodeRow (s : State) :
    ∃ i, decode (.row (romRow s)) = .instr i ∧ exec i s = .next (romStep s) := by
  simp only [decode, decodeRow]
  by_cases h0 : rowFsel (romRow s) = 0
  · rw [if_pos h0]
    exact ⟨_, rfl, by simp only [exec, execStepF, romStep, roundFn, if_pos h0]⟩
  · rw [if_neg h0]
    by_cases h1 : rowFsel (romRow s) = 1
    · rw [if_pos h1]
      exact ⟨_, rfl, by simp only [exec, execStepG, romStep, roundFn, if_neg h0, if_pos h1]⟩
    · rw [if_neg h1]
      by_cases h2 : rowFsel (romRow s) = 2
      · rw [if_pos h2]
        exact ⟨_, rfl, by simp only [exec, execStepH, romStep, roundFn, if_neg h0, if_neg h1, if_pos h2]⟩
      · rw [if_neg h2]
        exact ⟨_, rfl, by simp only [exec, execStepI, romStep, roundFn, if_neg h0, if_neg h1, if_neg h2]⟩

/-- The busy core executes the micro-op in SEQ and advances. -/
theorem busyStep_eq {s : State} (h : s.SEQ ≠ .idle) : busyStep s = .next (advance s (microEffect s)) := by
  have hrow : s.SEQ.isStep = true → microEffect s = romStep s → busyStep s = .next (advance s (microEffect s)) := by
    intro hs he
    obtain ⟨i, hd, hx⟩ := exec_decodeRow s
    rw [he]
    exact busyStep_of_decode (by simpa [fetchCode, hs] using hd) hx
  cases hq : s.SEQ with
  | idle => exact absurd hq h
  | stepF => exact hrow (by rw [hq]; rfl) (by simp [microEffect, hq])
  | stepG => exact hrow (by rw [hq]; rfl) (by simp [microEffect, hq])
  | stepH => exact hrow (by rw [hq]; rfl) (by simp [microEffect, hq])
  | stepI => exact hrow (by rw [hq]; rfl) (by simp [microEffect, hq])
  | ldiv => exact busyStep_of_decode (i := .ldiv) (by simp only [fetchCode, hq]; rfl) (by simp only [microEffect, hq]; rfl)
  | absb => exact busyStep_of_decode (i := .absb) (by simp only [fetchCode, hq]; rfl) (by simp only [microEffect, hq]; rfl)
  | cbeg => exact busyStep_of_decode (i := .cbeg) (by simp only [fetchCode, hq]; rfl) (by simp only [microEffect, hq]; rfl)
  | cend => exact busyStep_of_decode (i := .cend) (by simp only [fetchCode, hq]; rfl) (by simp only [microEffect, hq]; rfl)
  | pad80 =>
    exact busyStep_of_decode (i := .pad80) (by simp only [fetchCode, hq]; rfl) (by simp only [microEffect, hq]; rfl)
  | padz => exact busyStep_of_decode (i := .padz) (by simp only [fetchCode, hq]; rfl) (by simp only [microEffect, hq]; rfl)
  | padl => exact busyStep_of_decode (i := .padl) (by simp only [fetchCode, hq]; rfl) (by simp only [microEffect, hq]; rfl)
  | ser => exact busyStep_of_decode (i := .ser) (by simp only [fetchCode, hq]; rfl) (by simp only [microEffect, hq]; rfl)
  | flt => exact busyStep_of_decode (i := .flt) (by simp only [fetchCode, hq]; rfl) (by simp only [microEffect, hq]; rfl)

/-! ### The step -/

/-- A reset edge. -/
theorem step_rst {s : State} {rest : List HostEvent} (h : s.stim = .rst :: rest) :
    step s = .next (resetCore { s with stim := rest }) := by
  simp [step, h]

/-- A busy core at an edge that is not a reset. -/
theorem step_busy {s : State} (hq : s.SEQ ≠ .idle) (h : s.stim.head? ≠ some .rst) :
    step s = .next (advance { s with stim := heldStim s.stim } (microEffect { s with stim := heldStim s.stim })) := by
  rw [← busyStep_eq (s := { s with stim := heldStim s.stim }) hq]
  unfold step
  split
  · next h' => simp [h'] at h
  · simp [hq]

/-- An idle core with nothing offered. -/
theorem step_empty {s : State} (hq : s.SEQ = .idle) (h : s.stim = []) : step s = .next s := by
  simp [step, h, hq]

/-- An idle core at a quiet edge. -/
theorem step_quiet {s : State} {rest : List HostEvent} (hq : s.SEQ = .idle) (h : s.stim = .quiet :: rest) :
    step s = .next { s with stim := rest } := by
  simp [step, h, hq]

/-- An idle core that is offered a word accepts it. -/
theorem step_accept {s : State} {w : BitVec 10} {rest : List HostEvent} (hq : s.SEQ = .idle)
    (h : s.stim = .cmd w :: rest) : step s = acceptWord w { s with stim := rest } := by
  unfold step
  rw [h]
  exact if_pos hq

/-- An idle core that accepts a word at the command level. -/
theorem step_command {s : State} {w : BitVec 10} {rest : List HostEvent} (hq : s.SEQ = .idle)
    (hl : s.level = .command) (h : s.stim = .cmd w :: rest) :
    step s = .next (perform (commandAction w s) { s with stim := rest }) := by
  have ha := acceptWord_command (s := { s with stim := rest }) w hl
  rw [commandAction_congr (s := s) (t := { s with stim := rest }) w rfl rfl] at ha
  rw [step_accept hq h, ha]

/-- An idle core that accepts a word at the micro-op level. -/
theorem step_micro {s : State} {w : BitVec 10} {rest : List HostEvent} (hq : s.SEQ = .idle) (hl : s.level = .micro)
    (h : s.stim = .cmd w :: rest) :
    step s = .next (startAction (commandAction w s) { s with stim := rest }) := by
  have ha := acceptWord_micro (s := { s with stim := rest }) w hl
  rw [commandAction_congr (s := s) (t := { s with stim := rest }) w rfl rfl] at ha
  rw [step_accept hq h, ha]

/-- Everything a step can be. -/
theorem step_cases {s t : State} (h : step s = .next t) :
    (∃ rest, s.stim = .rst :: rest ∧ t = resetCore { s with stim := rest }) ∨
    (s.SEQ = .idle ∧ s.stim = [] ∧ t = s) ∨
    (s.SEQ = .idle ∧ ∃ rest, s.stim = .quiet :: rest ∧ t = { s with stim := rest }) ∨
    (s.SEQ = .idle ∧ s.level = .command ∧
      ∃ w rest, s.stim = .cmd w :: rest ∧ t = perform (commandAction w s) { s with stim := rest }) ∨
    (s.SEQ = .idle ∧ s.level = .micro ∧
      ∃ w rest, s.stim = .cmd w :: rest ∧ t = startAction (commandAction w s) { s with stim := rest }) ∨
    (s.SEQ ≠ .idle ∧ s.stim.head? ≠ some .rst ∧
      t = advance { s with stim := heldStim s.stim } (microEffect { s with stim := heldStim s.stim })) := by
  by_cases hq : s.SEQ = .idle
  · cases hs : s.stim with
    | nil => exact .inr (.inl ⟨hq, rfl, by simpa [step_empty hq hs] using h.symm⟩)
    | cons e rest =>
      cases e with
      | rst => exact .inl ⟨rest, rfl, by simpa [step_rst hs] using h.symm⟩
      | quiet => exact .inr (.inr (.inl ⟨hq, rest, rfl, by simpa [step_quiet hq hs] using h.symm⟩))
      | cmd w =>
        obtain hl | hl : s.level = .command ∨ s.level = .micro := by cases s.level <;> simp
        · exact .inr (.inr (.inr (.inl ⟨hq, hl, w, rest, rfl, by simpa [step_command hq hl hs] using h.symm⟩)))
        · exact .inr (.inr (.inr (.inr (.inl ⟨hq, hl, w, rest, rfl, by simpa [step_micro hq hl hs] using h.symm⟩))))
  · by_cases hr : s.stim.head? = some .rst
    · cases hs : s.stim with
      | nil => simp [hs] at hr
      | cons e rest =>
        have he : e = .rst := by simpa [hs] using hr
        subst he
        exact .inl ⟨rest, rfl, by simpa [step_rst hs] using h.symm⟩
    · exact .inr (.inr (.inr (.inr (.inr ⟨hq, hr, by simpa [step_busy hq hr] using h.symm⟩))))

/-! ### The invariant -/

/-- The invariant says nothing of what the host does next. -/
theorem Inv.withStim {s : State} (h : Inv s) (stim : List HostEvent) : Inv { s with stim := stim } :=
  ⟨h.romFixed, h.bufCanonical, h.digCanonical, h.countInRange, h.lenTracksCount, h.errIffFault, h.errLogged,
    h.digestWhenDone, h.noDigestElse, h.pendingListed, h.absorbPhase, h.absbBelowMax, h.padzRange, h.padlFilled,
    h.blockWritten⟩

/-! ### Runs -/

/-- Runs compose. -/
theorem Runs.trans {m n : Nat} {s t u : State} (h1 : Runs m s t) (h2 : Runs n t u) : Runs (m + n) s u := by
  induction m generalizing s with
  | zero => rw [Nat.zero_add]; rw [show s = t from h1]; exact h2
  | succ m ih =>
    obtain ⟨v, hv, h1⟩ := h1
    rw [Nat.succ_add]
    exact ⟨v, hv, ih h1⟩

/-- A run ends in one state. -/
theorem Runs.unique {n : Nat} {s t u : State} (h1 : Runs n s t) (h2 : Runs n s u) : t = u := by
  induction n generalizing s with
  | zero => exact h1.symm.trans h2
  | succ n ih =>
    obtain ⟨v, hv, h1⟩ := h1
    obtain ⟨v', hv', h2⟩ := h2
    rw [hv] at hv'
    injection hv' with hv'
    exact ih h1 (hv' ▸ h2)

/-- However the steps of a system's instances are scheduled, instance `k` ends where its own steps lead (R183, R72). -/
theorem runSchedule_runs {k n : Nat} {sys : System} {s t : State} (schedule : List Nat) (hs : sys[k]? = some s)
    (hn : schedule.count k = n) (h : Runs n s t) : (runSchedule schedule sys)[k]? = some t := by
  induction schedule generalizing sys s n with
  | nil =>
    subst hn
    rw [show s = t from h] at hs
    exact hs
  | cons j rest ih =>
    rw [runSchedule]
    by_cases hj : j = k
    · subst hj
      rw [List.count_cons_self] at hn
      subst hn
      obtain ⟨u, hu, h⟩ := h
      exact ih (stepInstance_self hs hu) rfl h
    · rw [List.count_cons_of_ne hj] at hn
      exact ih (by rw [stepInstance_other sys (Ne.symm hj), hs]) hn h

/-- One more step of a machine's run. -/
theorem run_succ (M : Host.Core) (n : Nat) (s : M.State) : Host.Core.run M (n + 1) s =
    match M.step s with
    | .next u => Host.Core.run M n u
    | .fault r => .fault r
    | .refused r => .refused r := rfl

/-- `Runs` is the host interface's run. -/
theorem run_of_runs {n : Nat} {s t : State} (h : Runs n s t) : Host.Core.run Sys2Proof.core n s = .next t := by
  induction n generalizing s with
  | zero => rw [show s = t from h]; rfl
  | succ n ih =>
    obtain ⟨u, hu, hr⟩ := h
    have hu' : Sys2Proof.core.step s = .next u := hu
    rw [run_succ Sys2Proof.core n s, hu']
    exact ih hr

end Sys2Proof.Machine
end

