-- ==== Sys2Proof/Tests/Slice0.lean ====
section
/-! SUPPORT. The model's own tests: the well-formedness check refuses, every constructor's word, one-step tests with results
from 95_test_vectors.md and 96_test_traces.md, and for every obligation with hypotheses a witness that meets them. -/

open Sys2Proof Sys2Proof.Machine

set_option Elab.async false

namespace Sys2Proof.Tests

/-! ### Helpers -/

/-- The next state of an outcome, if it is one. -/
def next? : Host.Outcome State Fault Refusal → Option State
  | .next t => some t
  | .fault _ => none
  | .refused _ => none

/-- `n` bytes `v` at offsets 0 .. n - 1. -/
def filled (n : Nat) (v : Byte) : Memory := (List.range n).map fun j => (j, v)

/-- An absorbing core with `n` message bytes 0x61 fed, at most 63 (95_test_vectors section 2.3). -/
def absorbed (n : Nat) : State :=
  { State.reset with CNT := BitVec.ofNat 64 n, LEN := BitVec.ofNat 6 n, BUF := filled n 0x61 }

/-- A core at the end of the largest message: CNT = MAX_BYTES, LEN = 63 (section 6.3). -/
def atMax : State := { absorbed 63 with CNT := maxBytes }

/-- A core that holds the digest of the empty message (section 6.6). -/
def finished : State :=
  { State.reset with
    S := { w0 := 0xD98C1DD4, w1 := 0x04B2008F, w2 := 0x980980E9, w3 := 0x7E42F8EC }
    PHASE := .done
    DIG := [(0, 0xD4), (1, 0x1D), (2, 0x8C), (3, 0xD9), (4, 0x8F), (5, 0x00), (6, 0xB2), (7, 0x04),
      (8, 0xE9), (9, 0x80), (10, 0x09), (11, 0x98), (12, 0xEC), (13, 0xF8), (14, 0x42), (15, 0x7E)] }

/-- A core in phase FAULT after MISUSE (section 6.6). -/
def faulted : State := { State.reset with PHASE := .fault, ERR := .misuse, ERRLOG := 0b001 }

/-- The block of the empty message in BUF, and the working registers given (section 6.4, single steps). -/
def inStep (n : BitVec 6) (a b c d : Word) : State :=
  { State.reset with BUF := (0, 0x80) :: (filled 64 0).tail, i := n, a := a, b := b, c := c, d := d }

/-- The working registers and the step counter. -/
def work (s : State) : Word × Word × Word × Word × BitVec 6 := (s.a, s.b, s.c, s.d, s.i)

/-- The digest as one number, first byte most significant (00_scope R14). -/
def digestNumber (s : State) : Nat := hexNumber (s.DIG.map Prod.snd)

/-! ### The well-formedness check refuses -/

theorem test_wellFormed_refuses_stepF_by_0 : (Instr.stepF 0 0 0xD76AA478).wellFormed = false := by decide
theorem test_wellFormed_refuses_stepG_by_0 : (Instr.stepG 1 0 0xF61E2562).wellFormed = false := by decide
theorem test_wellFormed_refuses_stepH_by_0 : (Instr.stepH 5 0 0xFFFA3942).wellFormed = false := by decide
theorem test_wellFormed_refuses_stepI_by_0 : (Instr.stepI 0 0 0xF4292244).wellFormed = false := by decide

/-! ### Words written out from 30_encoding (R80, R81, R84, R86) -/

theorem test_word_init : decode (.cmd 0b0000000000) = .instr .init := by decide
theorem test_word_upd : decode (.cmd 0b0101100001) = .instr (.upd 0x61) := by decide
theorem test_word_fin : decode (.cmd 0b1000000000) = .instr .fin := by decide
theorem test_word_stepF :
    decode (.row 0b0000000011111010111011010101010010001111000) = .instr (.stepF 0 7 0xD76AA478) := by decide
theorem test_word_stepG :
    decode (.row 0b0111001010010001101001010100100110010001010) = .instr (.stepG 12 20 0x8D2A4C8A) := by decide
theorem test_word_stepH :
    decode (.row 0b1000101011111000100101011000101011001100101) = .instr (.stepH 2 23 0xC4AC5665) := by decide
theorem test_word_stepI :
    decode (.row 0b1110011010111101011100001101101001110010001) = .instr (.stepI 9 21 0xEB86D391) := by decide
theorem test_word_ldiv : decode (.seq 0b0001) = .instr .ldiv := by decide
theorem test_word_absb : decode (.seq 0b0010) = .instr .absb := by decide
theorem test_word_cbeg : decode (.seq 0b0011) = .instr .cbeg := by decide
theorem test_word_cend : decode (.seq 0b1000) = .instr .cend := by decide
theorem test_word_pad80 : decode (.seq 0b1001) = .instr .pad80 := by decide
theorem test_word_padz : decode (.seq 0b1010) = .instr .padz := by decide
theorem test_word_padl : decode (.seq 0b1011) = .instr .padl := by decide
theorem test_word_ser : decode (.seq 0b1100) = .instr .ser := by decide
theorem test_word_flt : decode (.seq 0b1101) = .instr .flt := by decide

theorem test_reserved_words :
    (decode (.cmd 0x001), decode (.cmd 0x0FF), decode (.cmd 0x201), decode (.cmd 0x3FF)) =
      (.rejected (.reservedCommand 0x001), .rejected (.reservedCommand 0x0FF), .rejected (.reservedCommand 0x201),
        .rejected (.reservedCommand 0x3FF)) := by decide
theorem test_seq_codes_without_microop :
    (decode (.seq 0x0), decode (.seq 0x4), decode (.seq 0x7), decode (.seq 0xE), decode (.seq 0xF)) =
      (.rejected .seqIdle, .rejected .seqStepNeedsRow, .rejected .seqStepNeedsRow, .rejected .seqUnused,
        .rejected .seqUnused) := by decide
theorem test_command_map_at_its_boundaries :
    [0x000, 0x001, 0x0FF, 0x100, 0x1FF, 0x200, 0x201, 0x2FF, 0x300, 0x3FF].map
      (fun n => (decode (.cmd (BitVec.ofNat 10 n))).toOption) =
      [some .init, none, none, some (.upd 0x00), some (.upd 0xFF), some .fin, none, none, none, none] := by decide

/-! ### One step of each instruction (95_test_vectors sections 2, 3 and 6, 96_test_traces T1 and T3) -/

theorem test_init_leaves_fault :
    (next? (exec .init faulted)).map (fun t => (t.PHASE, t.ERR, t.ERRLOG, t.S, t.CNT, t.LEN)) =
      some (.absorb, .none, 0b001, iv, 0, 0) := by decide +kernel
theorem test_init_withdraws_the_digest_and_drops_buf :
    (next? (exec .init { finished with BUF := filled 3 0x61 })).map (fun t => (t.DIG, t.BUF, digestValid t)) =
      some ([], [], false) := by decide +kernel
theorem test_upd_stores_the_byte :
    (next? (exec (.upd 0x61) State.reset)).map (fun t => (t.BUF, t.CNT, t.LEN, t.S)) =
      some ([(0, 0x61)], 1, 1, iv) := by decide +kernel
theorem test_upd_compresses_the_64th_byte :
    (next? (exec (.upd 0x61) (absorbed 63))).map (fun t => (t.S, t.CNT, t.LEN, t.BUF.read 63)) =
      some (⟨0x89D4FF56, 0x125CD962, 0x69CADE33, 0x0033E325⟩, 64, 0, some 0x61) := by decide +kernel
theorem test_fin_empty_message :
    (next? (exec .fin State.reset)).map (fun t => (digestNumber t, t.PHASE, t.CNT)) =
      some (0xd41d8cd98f00b204e9800998ecf8427e, .done, 0) := by decide +kernel
theorem test_fin_two_blocks_at_56 :
    (next? (exec .fin (absorbed 56))).map digestNumber = some 0x3b0c8ac703f828b04c6c197006d17218 := by decide +kernel
theorem test_stepF_step_0 :
    (next? (exec (.stepF 0 7 0xD76AA478) (inStep 0 0x67452301 0xEFCDAB89 0x98BADCFE 0x10325476))).map work =
      some (0x10325476, 0xA5202774, 0xEFCDAB89, 0x98BADCFE, 1) := by decide +kernel
theorem test_stepG_step_16 :
    (next? (exec (.stepG 1 5 0xF61E2562) (inStep 16 0xF56C7CF1 0xD6819C6A 0x5AA53F75 0x374943A7))).map work =
      some (0x374943A7, 0x1C7D7513, 0xD6819C6A, 0x5AA53F75, 17) := by decide +kernel
theorem test_stepH_step_32 :
    (next? (exec (.stepH 5 4 0xFFFA3942) (inStep 32 0x13707036 0xA2205F1F 0x1C31C384 0xAE7813DB))).map work =
      some (0xAE7813DB, 0xDF63EAA1, 0xA2205F1F, 0x1C31C384, 33) := by decide +kernel
theorem test_stepI_step_48 :
    (next? (exec (.stepI 0 6 0xF4292244) (inStep 48 0x3F55EDFD 0xCA7D2DBD 0x68D84EA2 0x22A31F54))).map work =
      some (0x22A31F54, 0x93AA2577, 0xCA7D2DBD, 0x68D84EA2, 49) := by decide +kernel
theorem test_stepI_step_63 :
    (next? (exec (.stepI 9 21 0xEB86D391) (inStep 63 0x30130182 0xFF4EA3EB 0x6E10A476 0x7246FAD3))).map
      (fun t => (t.a, t.b, t.c, t.d)) = some (0x7246FAD3, 0x14E45506, 0xFF4EA3EB, 0x6E10A476) := by decide +kernel
theorem test_ldiv_keeps_buf_and_errlog :
    (next? (exec .ldiv { absorbed 3 with ERRLOG := 0b101 })).map
      (fun t => (t.S, t.LEN, t.BUF, t.ERRLOG)) = some (iv, 0, filled 3 0x61, 0b101) := by decide +kernel
theorem test_absb_wraps_len :
    (next? (exec .absb { absorbed 63 with opData := 0x7A })).map (fun t => (t.BUF.read 63, t.CNT, t.LEN, t.S)) =
      some (some 0x7A, 64, 0, iv) := by decide +kernel
theorem test_cbeg_copies_s :
    (next? (exec .cbeg State.reset)).map work =
      some (0x67452301, 0xEFCDAB89, 0x98BADCFE, 0x10325476, 0) := by decide +kernel
theorem test_cend_adds_word_by_word :
    (next? (exec .cend (inStep 0 0x7246FAD3 0x14E45506 0xFF4EA3EB 0x6E10A476))).map (·.S) =
      some ⟨0xD98C1DD4, 0x04B2008F, 0x980980E9, 0x7E42F8EC⟩ := by decide +kernel
theorem test_pad80_at_63 :
    (next? (exec .pad80 (absorbed 63))).map (fun t => (t.BUF.read 63, t.BUF.read 62, t.LEN, t.CNT)) =
      some (some 0x80, some 0x61, 63, 63) := by decide +kernel
theorem test_padz_57_to_63 :
    (next? (exec .padz { absorbed 57 with opLo := 57, opHi := 63 })).map (·.BUF) =
      some (filled 57 0x61 ++ (List.range 7).map fun j => (57 + j, 0)) := by decide +kernel
theorem test_padz_64_to_63_writes_nothing :
    (next? (exec .padz { absorbed 63 with opLo := 64, opHi := 63 })).map (·.BUF) = some (filled 63 0x61) := by decide +kernel
theorem test_padl_byte_order :
    (next? (exec .padl { State.reset with CNT := 0x0123456789ABCDEF })).map (fun t => t.BUF.map Prod.snd) =
      some [0x78, 0x6F, 0x5E, 0x4D, 0x3C, 0x2B, 0x1A, 0x09] := by decide +kernel
theorem test_padl_largest :
    (next? (exec .padl atMax)).map (fun t => (List.range 8).map fun k => t.BUF.read (56 + k)) =
      some [some 0xF8, some 0xFF, some 0xFF, some 0xFF, some 0xFF, some 0xFF, some 0xFF, some 0xFF] := by decide +kernel
theorem test_ser_byte_order :
    (next? (exec .ser { State.reset with S := ⟨0x00000001, 0x00000000, 0x80000000, 0xFFFFFFFE⟩ })).map
      (fun t => (digestNumber t, t.PHASE)) = some (0x010000000000000000000080feffffff, .done) := by decide +kernel
theorem test_flt_misuse :
    (next? (exec .flt { finished with opCause := .misuse })).map (fun t => (t.PHASE, t.ERR, t.ERRLOG, t.DIG)) =
      some (.fault, .misuse, 0b001, []) := by decide +kernel
theorem test_flt_illegal_adds_its_bit :
    (next? (exec .flt { State.reset with opCause := .illegal, ERRLOG := 0b001 })).map (fun t => (t.ERR, t.ERRLOG)) =
      some (.illegal, 0b101) := by decide +kernel

/-! ### The machine around the instructions (95_test_vectors sections 6.3, 6.4, 6.6, 6.7) -/

theorem test_upd_overflows_at_max :
    (next? (exec (.upd 0x00) atMax)).map (fun t => (ports t, t.BUF)) =
      some (⟨true, false, none, true, 2, 0b010⟩, filled 63 0x61) := by decide +kernel
theorem test_reserved_word_in_done :
    (next? (step { finished with stim := [.cmd 0x3FF] })).map (fun t => (t.PHASE, t.ERR, t.ERRLOG, t.DIG)) =
      some (.fault, .illegal, 0b100, []) := by decide +kernel
theorem test_fault_discards_fin :
    next? (step { faulted with stim := [.cmd 0x200] }) = some faulted := by decide +kernel
theorem test_reset_clears_errlog :
    (next? (step { faulted with ERRLOG := 0b101, stim := [.rst] })).map (fun t => (t.PHASE, t.ERR, t.ERRLOG, t.S)) =
      some (.absorb, .none, 0b000, iv) := by decide +kernel
theorem test_round_functions :
    (fnF 0x12345678 0x9ABCDEF0 0x00000000, fnG 0x00000000 0x12345678 0x9ABCDEF0,
      fnH 0xFFFFFFFF 0x12345678 0x9ABCDEF0, fnI 0xDEADBEEF 0xDEADBEEF 0x01234567) =
      (0x12345670, 0x00000008, 0x77777777, 0x20500010) := by decide
theorem test_rotl32 :
    (rotl32 0x80000000 7, rotl32 0x12345678 23, rotl32 0x80000001 4, rotl32 0x12345678 16) =
      (0x00000040, 0x3C091A2B, 0x00000018, 0x56781234) := by decide +kernel
theorem test_compress_of_zeros :
    compressFn ⟨0, 0, 0, 0⟩ (List.replicate 64 0) = ⟨0xF7CD1C97, 0xA5483681, 0x2B68D832, 0xF90CA639⟩ := by decide +kernel
theorem test_digest_abc :
    hexNumber (digest [0x61, 0x62, 0x63]) = 0x900150983cd24fb0d6963f7d28e17f72 := by decide +kernel
theorem test_reset_memory_is_canonical : State.reset.BUF.wf = true ∧ State.reset.DIG.wf = true := by decide
theorem test_fetch_word_runs_at_reset :
    (next? (step (State.reset.withFetchWord 8 0x3))).map work =
      some (0x67452301, 0xEFCDAB89, 0x98BADCFE, 0x10325476, 0) := by decide +kernel

/-! ### Witnesses: each obligation's hypotheses are met -/

/-- RowsDecodeByFselAlone and StepsMixTheWorkingRegisters hold of every value; the free cases are i = 63 and rotation 0. -/
theorem witness_StepsMixTheWorkingRegisters : (inStep 62 0 0 0 0).i ≠ 63 ∧ (1 : BitVec 5) ≠ 0 ∧ (31 : BitVec 5) ≠ 0 := by
  decide

theorem witness_RomRowsFollowTheStepRules : 63 < 64 ∧ 3 < 4 := by decide

theorem witness_ResetEdgeCreatesAnAccumulator :
    ({ finished with SEQ := .stepG, stim := [.rst, .cmd 0x200] } : State).stim = .rst :: [.cmd 0x200] := rfl

theorem witness_ResetErasesTheAbandonedCommand :
    ({ absorbed 40 with SEQ := .absb, stim := [.rst] } : State).stim.head? = some .rst ∧
      ({ finished with SEQ := .stepI, stim := [.rst] } : State).stim =
        ({ absorbed 40 with SEQ := .absb, stim := [.rst] } : State).stim ∧
      finished.ROM = (absorbed 40).ROM ∧ finished.level = (absorbed 40).level ∧ finished.fresh = (absorbed 40).fresh :=
  ⟨rfl, rfl, rfl, rfl, rfl⟩

theorem witness_CommandStepRunsTheDecodedInstruction :
    AtBoundary { State.reset with stim := [.cmd 0x161] } ∧ decode (.cmd 0x161) = .instr (.upd 0x61) := by
  exact ⟨⟨rfl, rfl⟩, by decide⟩

/-- A micro-op code and a step's row. -/
theorem witness_BusyStepRunsTheFetchedMicroOp :
    ({ State.reset with SEQ := .cbeg } : State).SEQ ≠ .idle ∧
      ({ State.reset with SEQ := .cbeg } : State).stim.head? ≠ some .rst ∧
      decode (fetchCode { State.reset with SEQ := .cbeg }) = .instr .cbeg ∧
      decode (fetchCode { State.reset with SEQ := .stepI, i := 63 }) = .instr (.stepI 9 21 0xEB86D391) := by
  decide +kernel

theorem witness_IdleCoreHoldsItsState :
    finished.SEQ = .idle ∧ finished.stim = [] ∧
      ({ finished with stim := [.quiet] } : State).stim = .quiet :: [] := ⟨rfl, rfl, rfl⟩

theorem witness_OfferWhileBusyHasNoEffect :
    ({ absorbed 63 with SEQ := .absb, stim := [.cmd 0x200] } : State).SEQ ≠ .idle ∧
      ({ absorbed 63 with SEQ := .absb, stim := [.cmd 0x200] } : State).stim = .cmd 0x200 :: [] := by
  exact ⟨by decide, rfl⟩

/-- The last byte but one of the largest message that does not fill the buffer: LEN = 62, CNT = 2^61 - 2. -/
theorem witness_UpdStoresOneByte :
    ({ absorbed 62 with CNT := 0x1FFFFFFFFFFFFFFE } : State).PHASE = .absorb ∧
      ({ absorbed 62 with CNT := 0x1FFFFFFFFFFFFFFE } : State).CNT.toNat < 2 ^ 61 - 1 ∧
      ({ absorbed 62 with CNT := 0x1FFFFFFFFFFFFFFE } : State).LEN ≠ 63 := by
  decide

theorem witness_UpdCompressesTheFilledBlock :
    (absorbed 63).PHASE = .absorb ∧ (absorbed 63).CNT.toNat < 2 ^ 61 - 1 ∧ (absorbed 63).LEN = 63 ∧
      (absorbed 63).ROM = romTable := ⟨rfl, by decide, rfl, rfl⟩

theorem witness_UpdAtMaxBytesOverflows : atMax.PHASE = .absorb ∧ atMax.CNT.toNat = 2 ^ 61 - 1 := by decide

theorem witness_UpdAndFinAfterFinAreMisuse :
    finished.PHASE = .done ∧ (Instr.fin = .fin ∨ ∃ x, Instr.fin = .upd x) ∧
      (Instr.upd 0xFF = .fin ∨ ∃ x, Instr.upd 0xFF = .upd x) := ⟨rfl, .inl rfl, .inr ⟨_, rfl⟩⟩

theorem witness_ReservedWordsAreIllegal :
    AtBoundary { finished with stim := [.cmd 0x3FF] } ∧ finished.PHASE ≠ .fault ∧ State.reset.PHASE ≠ .fault ∧
      (∀ i, decode (.cmd 0x3FF) ≠ .instr i) ∧ ∀ i, decode (.cmd 0x001) ≠ .instr i := by
  refine ⟨⟨rfl, rfl⟩, by decide, by decide, fun i h => ?_, fun i h => ?_⟩
  · rw [show decode (.cmd 0x3FF) = .rejected (.reservedCommand 0x3FF) by decide] at h
    cases h
  · rw [show decode (.cmd 0x001) = .rejected (.reservedCommand 0x001) by decide] at h
    cases h

theorem witness_FaultPhaseDiscardsEveryWordButInit :
    ({ faulted with stim := [.cmd 0x001] } : State).SEQ = .idle ∧
      ({ faulted with stim := [.cmd 0x001] } : State).PHASE = .fault ∧ (0x001 : BitVec 10) ≠ 0x000 := by
  exact ⟨rfl, rfl, by decide⟩

/-- The two boundaries of the one-block clause. -/
theorem witness_FinWithOneFinalBlock :
    (absorbed 0).PHASE = .absorb ∧ (absorbed 0).LEN.toNat ≤ 55 ∧ (absorbed 55).LEN.toNat ≤ 55 ∧
      (absorbed 55).ROM = romTable := ⟨rfl, by decide, by decide, rfl⟩

/-- The two boundaries of the two-block clause. -/
theorem witness_FinWithTwoFinalBlocks :
    (absorbed 56).PHASE = .absorb ∧ 56 ≤ (absorbed 56).LEN.toNat ∧ 56 ≤ (absorbed 63).LEN.toNat ∧
      (absorbed 63).ROM = romTable := ⟨rfl, by decide, by decide, rfl⟩

theorem witness_FltEntersTheFaultPhase :
    ({ State.reset with opCause := .misuse } : State).opCause = .misuse ∧
      ({ State.reset with opCause := .overflow } : State).opCause = .overflow ∧
      ({ State.reset with opCause := .illegal } : State).opCause = .illegal := ⟨rfl, rfl, rfl⟩

theorem witness_RoundFunctionsFollowTheTruthTable : 0 < 32 ∧ 31 < 32 := by decide

theorem witness_MessageWordIsLittleEndian :
    (absorbed 63).BUF.read (4 * (0 : BitVec 4).toNat) = some 0x61 ∧
      ((absorbed 63).BUF.write 63 0x80).read (4 * (15 : BitVec 4).toNat + 3) = some 0x80 := by
  decide +kernel

theorem witness_CompressSequenceIsTheFunction : State.reset.ROM = romTable := rfl

/-- The two shapes of the range: nonempty up to 63, and empty. -/
theorem witness_PadzStoresZeros :
    ({ absorbed 56 with opLo := 57, opHi := 63 } : State).opLo.toNat ≤ 63 ∧ 63 ≤ (63 : BitVec 6).toNat ∧
      ¬({ absorbed 63 with opLo := 64, opHi := 63 } : State).opLo.toNat ≤ 63 := by
  decide

theorem witness_PadlStoresTheBitCount : atMax.CNT.toNat ≤ 2 ^ 61 - 1 ∧ 7 < 8 := by decide

theorem witness_SerStoresTheDigest : 3 < 4 := by decide

theorem witness_DigestPortCarriesTheChainingWords : 3 < 4 := by decide

theorem witness_ReadReturnsTheLatestWrite :
    (filled 63 0x61).wf = true ∧ 63 < 64 ∧ (filled 63 0x61).within 64 = true := by decide +kernel

theorem witness_CanonicalMemoriesAreEqualWhenTheyReadAlike :
    Memory.wf [(0, 0x61), (63, 0x80)] = true ∧ Memory.wf (Memory.write [(63, 0x80)] 0 0x61) = true ∧
      SameBytes [(0, 0x61), (63, 0x80)] (Memory.write [(63, 0x80)] 0 0x61) := ⟨by decide, by decide, fun _ => rfl⟩

/-! #### States that meet the invariant -/

/-- A core with 63 pending bytes. -/
theorem inv_absorbed_63 : Inv (absorbed 63) where
  romFixed := rfl
  bufCanonical := by decide +kernel
  digCanonical := by decide +kernel
  countInRange := by decide +kernel
  lenTracksCount := by decide +kernel
  errIffFault := by decide +kernel
  errLogged := by intro cause; cases cause <;> decide +kernel
  digestWhenDone := fun h => by cases h
  noDigestElse := by decide +kernel
  pendingListed := by unfold Memory.ListedBelow; decide +kernel
  absorbPhase := by decide +kernel
  absbBelowMax := by decide +kernel
  padzRange := fun h => by cases h
  padlFilled := fun h => by cases h
  blockWritten := fun h => by cases h

/-- A core that holds a digest. -/
theorem inv_finished : Inv finished where
  romFixed := rfl
  bufCanonical := by decide +kernel
  digCanonical := by decide +kernel
  countInRange := by decide +kernel
  lenTracksCount := fun h => by cases h
  errIffFault := by decide +kernel
  errLogged := by intro cause; cases cause <;> decide +kernel
  digestWhenDone := by unfold Memory.ListedBelow; decide +kernel
  noDigestElse := by decide +kernel
  pendingListed := fun h => by cases h
  absorbPhase := by decide +kernel
  absbBelowMax := by decide +kernel
  padzRange := fun h => by cases h
  padlFilled := fun h => by cases h
  blockWritten := fun h => by cases h

/-- A faulted core. -/
theorem inv_faulted : Inv faulted where
  romFixed := rfl
  bufCanonical := by decide +kernel
  digCanonical := by decide +kernel
  countInRange := by decide +kernel
  lenTracksCount := fun h => by cases h
  errIffFault := by decide +kernel
  errLogged := by intro cause; cases cause <;> decide +kernel
  digestWhenDone := fun h => by cases h
  noDigestElse := by decide +kernel
  pendingListed := fun h => by cases h
  absorbPhase := by decide +kernel
  absbBelowMax := by decide +kernel
  padzRange := fun h => by cases h
  padlFilled := fun h => by cases h
  blockWritten := fun h => by cases h

/-- A faulted core that has started an INIT at the micro-op level. -/
theorem inv_faulted_ldiv : Inv { faulted with SEQ := .ldiv } where
  romFixed := rfl
  bufCanonical := by decide +kernel
  digCanonical := by decide +kernel
  countInRange := by decide +kernel
  lenTracksCount := fun h => by cases h
  errIffFault := by decide +kernel
  errLogged := by intro cause; cases cause <;> decide +kernel
  digestWhenDone := fun h => by cases h
  noDigestElse := by decide +kernel
  pendingListed := fun h => by cases h
  absorbPhase := by decide +kernel
  absbBelowMax := by decide +kernel
  padzRange := fun h => by cases h
  padlFilled := fun h => by cases h
  blockWritten := fun h => by cases h

/-- The step that fills the buffer, from a state with the invariant. -/
theorem witness_EveryStepKeepsTheInvariant :
    Inv { absorbed 63 with stim := [.cmd 0x161] } ∧ ∃ t, step { absorbed 63 with stim := [.cmd 0x161] } = .next t :=
  ⟨inv_absorbed_63.withStim _, _, step_command rfl rfl rfl⟩

theorem witness_CommandLevelStaysAtBoundaries :
    AtBoundary { finished with stim := [.cmd 0x200] } ∧ ∃ t, step { finished with stim := [.cmd 0x200] } = .next t :=
  ⟨⟨rfl, rfl⟩, _, step_command rfl rfl rfl⟩

theorem witness_ErrlogIsSticky :
    (∃ t, exec .flt { finished with opCause := .overflow } = .next t) ∧
      (1 : Fin 3).val + 1 = ({ finished with opCause := .overflow } : State).opCause.code ∧
      (∃ t, step { faulted with stim := [.cmd 0x000] } = .next t) ∧
      ({ faulted with stim := [.cmd 0x000] } : State).stim.head? ≠ some .rst ∧ faulted.ERRLOG[0] = true ∧
      ∃ t, exec .init faulted = .next t :=
  ⟨⟨_, rfl⟩, rfl, ⟨_, step_command rfl rfl rfl⟩, by decide, by decide, _, rfl⟩

theorem witness_DigestIsImmutableWhileDone :
    Inv finished ∧ step finished = .next finished ∧
      finished.PHASE = .done :=
  ⟨inv_finished, step_empty rfl rfl, rfl⟩

/-- The three ways out: reset, INIT accepted, INIT's LDIV running. -/
theorem witness_OnlyInitAndResetLeaveFault :
    Inv { faulted with stim := [.rst] } ∧ Inv { faulted with stim := [.cmd 0x000] } ∧
      Inv { faulted with SEQ := .ldiv } ∧
      (next? (step { faulted with stim := [.rst] })).map (·.PHASE) = some .absorb ∧
      (next? (step { faulted with stim := [.cmd 0x000] })).map (·.PHASE) = some .absorb ∧
      (next? (step { faulted with SEQ := .ldiv })).map (·.PHASE) = some .absorb := by
  refine ⟨inv_faulted.withStim _, inv_faulted.withStim _, inv_faulted_ldiv, ?_, ?_, ?_⟩ <;>
    decide +kernel

theorem witness_OnlyTheNamedWritersWrite : ∃ t, exec .cend State.reset = .next t ∧ t.CNT = State.reset.CNT :=
  ⟨_, rfl, rfl⟩

/-- FIN at the micro-op level, the host stopping afterwards or holding a word. -/
theorem witness_MicroLevelAgreesWithCommandLevel :
    ({ State.reset with level := .micro, stim := [.cmd 0x200] } : State).SEQ = .idle ∧ HostWaits [] ∧
      HostWaits [.cmd 0x161, .rst] ∧
      ∃ u, step { { State.reset with level := .micro, stim := [.cmd 0x200] } with level := .command } = .next u :=
  ⟨rfl, .inl rfl, .inr ⟨_, _, rfl⟩, _, step_command rfl rfl rfl⟩

theorem witness_EveryMessageGetsItsDigest :
    [0x61].length ≤ 2 ^ 61 - 1 ∧ AtBoundary { finished with stim := digestEvents [0x61] ++ [.quiet] } ∧
      ({ finished with stim := digestEvents [0x61] ++ [.quiet] } : State).ROM = romTable :=
  ⟨by decide, ⟨rfl, rfl⟩, rfl⟩

/-- An absorbing core, and the clause's bound at its edge. -/
theorem witness_ChunkingDoesNotMatter :
    AtBoundary (absorbed 63) ∧ (absorbed 63).PHASE = .absorb ∧
      (absorbed 63).CNT.toNat + ([([0x61], 2), ([], 1), ([0x62], 0)].flatMap Prod.fst : List Byte).length ≤ 2 ^ 61 - 1 ∧
      ({ absorbed 62 with CNT := 0x1FFFFFFFFFFFFFFE } : State).CNT.toNat +
        ([([0x61], 2)].flatMap Prod.fst : List Byte).length = 2 ^ 61 - 1 ∧
      ([([0x61], 2), ([], 1), ([0x62], 0)].flatMap Prod.fst : List Byte).getLast? = some 0x62 := by
  refine ⟨⟨rfl, rfl⟩, rfl, ?_⟩
  decide +kernel

/-- Scratch that differs while absorbing: working registers, a stale byte, the model's own fields. -/
theorem witness_ScratchNeverReachesTheHost_absorbing :
    SameForHost { State.reset with stim := [.cmd 0x200] }
      { State.reset with stim := [.cmd 0x200], a := 7, i := 9, BUF := [(5, 0xAA)], opData := 3, fresh := 12 } where
  left := ⟨rfl, rfl⟩
  right := ⟨rfl, rfl⟩
  rom := rfl
  phase := rfl
  err := rfl
  errlog := rfl
  dig := rfl
  stim := rfl
  digest := fun h => by cases h
  computation := fun _ => ⟨rfl, rfl, rfl⟩
  pending := fun _ j hj => absurd hj (Nat.not_lt_zero j)

/-- Remains of a finished computation that differ: S, CNT, LEN. -/
theorem witness_ScratchNeverReachesTheHost_done :
    SameForHost { finished with stim := [.cmd 0x161] }
      { finished with stim := [.cmd 0x161], S := iv, CNT := 5, LEN := 17 } where
  left := ⟨rfl, rfl⟩
  right := ⟨rfl, rfl⟩
  rom := rfl
  phase := rfl
  err := rfl
  errlog := rfl
  dig := rfl
  stim := rfl
  digest := inv_finished.digestWhenDone
  computation := fun h => by cases h
  pending := fun h => by cases h

/-- An instance whose three steps stand between those of another, and a position without an instance. -/
theorem witness_InstancesDoNotInteract :
    [State.reset, { finished with stim := digestEvents [0x61] ++ [.quiet] }][1]? =
        some { finished with stim := digestEvents [0x61] ++ [.quiet] } ∧
      [0x61].length ≤ 2 ^ 61 - 1 ∧ AtBoundary { finished with stim := digestEvents [0x61] ++ [.quiet] } ∧
      finished.ROM = romTable ∧ [0, 1, 1, 2, 0, 1].count 1 = [0x61].length + 2 :=
  ⟨rfl, by decide, ⟨rfl, rfl⟩, rfl, by decide⟩

end Sys2Proof.Tests
end

section
/-! PROOFS. The two levels of 00_scope R9: commands are atomic at the command level, and a run of micro-ops ends where the
command level's one step does. -/

namespace Sys2Proof.Machine

/-! ### Sequencer control

The fields of `State` that the sequencer owns, kept apart from the registers the commands compute on. Every operation of
the machine leaves them to the sequencer: it commutes with `State.withControl`. -/

/-- SEQ with the model's own operand fields and level (log entries 1 and 10). -/
structure Control where
  SEQ : Seq
  opData : Byte
  opLo : BitVec 7
  opHi : BitVec 6
  opCause : Cause
  caller : Caller
  level : Level

/-- The control of a state. -/
def control (s : State) : Control where
  SEQ := s.SEQ
  opData := s.opData
  opLo := s.opLo
  opHi := s.opHi
  opCause := s.opCause
  caller := s.caller
  level := s.level

/-- The registers of `d` under the control `c`. -/
def State.withControl (d : State) (c : Control) : State :=
  { d with
    SEQ := c.SEQ
    opData := c.opData
    opLo := c.opLo
    opHi := c.opHi
    opCause := c.opCause
    caller := c.caller
    level := c.level }

@[simp] theorem withControl_SEQ (d : State) (c : Control) : (d.withControl c).SEQ = c.SEQ := (rfl)

@[simp] theorem withControl_LEN (d : State) (c : Control) : (d.withControl c).LEN = d.LEN := (rfl)

@[simp] theorem withControl_caller (d : State) (c : Control) : (d.withControl c).caller = c.caller := (rfl)

@[simp] theorem withControl_stim (d : State) (c : Control) : (d.withControl c).stim = d.stim := (rfl)

@[simp] theorem control_withControl (d : State) (c : Control) : control (d.withControl c) = c := (rfl)

theorem withControl_control (s : State) : s.withControl (control s) = s := (rfl)

theorem withControl_withSEQ (d : State) (c : Control) (q : Seq) :
    { d.withControl c with SEQ := q } = d.withControl { c with SEQ := q } := (rfl)

theorem romSteps_withControl (n : Nat) (d : State) (c : Control) :
    romSteps n (d.withControl c) = (romSteps n d).withControl c := by
  induction n generalizing d with
  | zero => simp
  | succ n ih => rw [romSteps_succ, romSteps_succ]; exact ih (romStep d)

theorem beginCompress_withControl (d : State) (c : Control) :
    beginCompress (d.withControl c) = (beginCompress d).withControl c := (rfl)

theorem endCompress_withControl (d : State) (c : Control) :
    endCompress (d.withControl c) = (endCompress d).withControl c := (rfl)

theorem compress_withControl (d : State) (c : Control) : compress (d.withControl c) = (compress d).withControl c := by
  rw [compress, beginCompress_withControl, romSteps_withControl, endCompress_withControl, compress]

theorem absorbByte_withControl (x : Byte) (d : State) (c : Control) :
    absorbByte x (d.withControl c) = (absorbByte x d).withControl c := (rfl)

theorem onlyBlock_withControl (d : State) (c : Control) :
    onlyBlock (d.withControl c) = (onlyBlock d).withControl c := (rfl)

theorem firstBlock_withControl (d : State) (c : Control) :
    firstBlock (d.withControl c) = (firstBlock d).withControl c := (rfl)

theorem secondBlock_withControl (d : State) (c : Control) :
    secondBlock (d.withControl c) = (secondBlock d).withControl c := (rfl)

theorem serialise_withControl (d : State) (c : Control) :
    serialise (d.withControl c) = (serialise d).withControl c := (rfl)

theorem freeLen_withControl (d : State) (c : Control) : freeLen (d.withControl c) = (freeLen d).withControl c := (rfl)

theorem updBody_withControl (x : Byte) (d : State) (c : Control) :
    updBody x (d.withControl c) = (updBody x d).withControl c := by
  rw [updBody, withControl_LEN, absorbByte_withControl, compress_withControl, updBody,
    ← apply_ite (State.withControl · c)]

theorem finBody_withControl (d : State) (c : Control) : finBody (d.withControl c) = (finBody d).withControl c := by
  rw [finBody, withControl_LEN, onlyBlock_withControl, compress_withControl, serialise_withControl,
    freeLen_withControl, firstBlock_withControl, compress_withControl, secondBlock_withControl, compress_withControl,
    serialise_withControl, freeLen_withControl, finBody, ← apply_ite (State.withControl · c)]

/-- A command computes on the registers and leaves the control alone. -/
theorem perform_withControl (action : Action) (d : State) (c : Control) :
    perform action (d.withControl c) = (perform action d).withControl c := by
  cases action with
  | discard => rfl
  | load => rfl
  | raise cause => rfl
  | absorb x => exact updBody_withControl x d c
  | finalize => exact finBody_withControl d c

@[simp] theorem control_perform (action : Action) (s : State) : control (perform action s) = control s := by
  have h := perform_withControl action s (control s)
  rw [withControl_control] at h
  rw [h, control_withControl]

/-- At a command boundary states are compared up to the control other than SEQ. -/
theorem forgetMicro_withControl (d : State) {c c' : Control} (h : c.SEQ = c'.SEQ) :
    forgetMicro (d.withControl c) = forgetMicro (d.withControl c') := by
  simp only [forgetMicro, State.withControl, h]

theorem atBoundary_iff (s : State) : AtBoundary s ↔ (control s).SEQ = .idle ∧ (control s).level = .command := Iff.rfl

/-! ### O42: atomic commands -/

theorem atBoundary_perform {s : State} (h : AtBoundary s) (action : Action) : AtBoundary (perform action s) := by
  rw [atBoundary_iff] at h ⊢
  rwa [control_perform]

/-- Settles O42: an idle core at the command level resets, holds its state, lets a quiet edge pass or performs a whole
command, and none of these touches the level or leaves SEQ away from IDLE. -/
theorem commandLevelStaysAtBoundaries : Obligations.CommandLevelStaysAtBoundaries := by
  unfold Obligations.CommandLevelStaysAtBoundaries
  intro s t hs ht
  obtain ⟨hq, hl⟩ := hs
  obtain ⟨rest, -, rfl⟩ | ⟨-, -, rfl⟩ | ⟨-, rest, -, rfl⟩ | ⟨-, -, w, rest, -, rfl⟩ | ⟨-, hm, -⟩ | ⟨hb, -⟩ :=
    step_cases ht
  · exact ⟨rfl, hl⟩
  · exact ⟨hq, hl⟩
  · exact ⟨hq, hl⟩
  · exact atBoundary_perform (s := { s with stim := rest }) ⟨hq, hl⟩ _
  · exact absurd (hl.symm.trans hm) (by decide)
  · exact absurd hq hb

/-! ### Runs of a busy core and the ports meanwhile -/

/-- `n` steps lead from `s` to `t`, and the ports show `p` in every state on the way before `t`. -/
def RunsShowing (p : Ports) : Nat → State → State → Prop
  | 0, s, t => s = t
  | n + 1, s, t => ports s = p ∧ ∃ u, step s = .next u ∧ RunsShowing p n u t

theorem RunsShowing.runs {p : Ports} {n : Nat} {s t : State} (h : RunsShowing p n s t) : Runs n s t := by
  induction n generalizing s with
  | zero => exact h
  | succ n ih =>
    obtain ⟨-, u, hu, h⟩ := h
    exact ⟨u, hu, ih h⟩

theorem RunsShowing.trans {p : Ports} {m n : Nat} {s t u : State} (h1 : RunsShowing p m s t)
    (h2 : RunsShowing p n t u) : RunsShowing p (m + n) s u := by
  induction m generalizing s with
  | zero => rw [Nat.zero_add]; exact (show s = t from h1) ▸ h2
  | succ m ih =>
    obtain ⟨hp, v, hv, h1⟩ := h1
    rw [Nat.succ_add]
    exact ⟨hp, v, hv, ih h1⟩

/-- Every state that a proper part of the run reaches shows `p`. -/
theorem RunsShowing.ports_eq {p : Ports} {n k : Nat} {s t v : State} (h : RunsShowing p n s t) (hk : k < n)
    (hv : Runs k s v) : ports v = p := by
  induction k generalizing n s with
  | zero =>
    obtain ⟨n, rfl⟩ : ∃ m, n = m + 1 := ⟨n - 1, by omega⟩
    exact (show s = v from hv) ▸ h.1
  | succ k ih =>
    obtain ⟨n, rfl⟩ : ∃ m, n = m + 1 := ⟨n - 1, by omega⟩
    obtain ⟨-, u, hu, h⟩ := h
    obtain ⟨u', hu', hv⟩ := hv
    obtain rfl : u = u' := by simpa [hu] using hu'
    exact ih h (by omega) hv

/-- The ports of `s` while a command runs: nothing changes but `cmd_ready_o` = 0 (R9, R37). -/
def busyPorts (s : State) : Ports := { ports s with cmd_ready_o := false }

/-- A busy core shows the ports of its registers with `cmd_ready_o` = 0. -/
theorem ports_withControl (d : State) {c : Control} (hc : c.SEQ ≠ .idle) : ports (d.withControl c) = busyPorts d := by
  have hready : cmdReady (d.withControl c) = false := by simp [cmdReady, hc]
  simp only [ports, hready]
  rfl

/-- Outside phase DONE the ports are PHASE, ERR and ERRLOG. -/
theorem busyPorts_congr {s t : State} (hphase : t.PHASE = s.PHASE) (herr : t.ERR = s.ERR)
    (hlog : t.ERRLOG = s.ERRLOG) (hnd : s.PHASE ≠ .done) : busyPorts t = busyPorts s := by
  simp [busyPorts, ports, digestValid, errFlag, hphase, herr, hlog, hnd]

/-- A host that waits takes no edge away from a busy core. -/
theorem HostWaits.heldStim_eq {stim : List HostEvent} (h : HostWaits stim) : heldStim stim = stim := by
  obtain rfl | ⟨w, rest, rfl⟩ := h <;> rfl

theorem HostWaits.no_reset {stim : List HostEvent} (h : HostWaits stim) : stim.head? ≠ some .rst := by
  obtain rfl | ⟨w, rest, rfl⟩ := h <;> simp

/-- One micro-op of the busy core while the host waits. -/
theorem runsShowing_microOp {d t : State} {c : Control} (hw : HostWaits d.stim) (hc : c.SEQ ≠ .idle)
    (ht : advance (d.withControl c) (microEffect (d.withControl c)) = t) :
    RunsShowing (busyPorts d) 1 (d.withControl c) t := by
  refine ⟨ports_withControl d hc, t, ?_, rfl⟩
  have hheld : { d.withControl c with stim := heldStim (d.withControl c).stim } = d.withControl c := by
    rw [withControl_stim, hw.heldStim_eq]; rfl
  rw [step_busy (s := d.withControl c) hc hw.no_reset, hheld, ht]

/-! ### The micro-ops of UPD and FIN

They run in phase ABSORB and change none of what the ports show there, up to the last one. -/

/-- `e` looks to the host as the absorbing core `d` does, and the host waits. -/
structure Absorbing (d e : State) : Prop where
  phase : d.PHASE = .absorb
  waits : HostWaits e.stim
  samePhase : e.PHASE = d.PHASE
  sameErr : e.ERR = d.ERR
  sameErrlog : e.ERRLOG = d.ERRLOG

theorem Absorbing.refl {d : State} (hp : d.PHASE = .absorb) (hw : HostWaits d.stim) : Absorbing d d :=
  ⟨hp, hw, rfl, rfl, rfl⟩

theorem Absorbing.busyPorts_eq {d e : State} (h : Absorbing d e) : busyPorts e = busyPorts d :=
  busyPorts_congr h.samePhase h.sameErr h.sameErrlog (by rw [h.phase]; decide)

theorem Absorbing.of_eq {d e f : State} (h : Absorbing d e) (hstim : f.stim = e.stim) (hphase : f.PHASE = e.PHASE)
    (herr : f.ERR = e.ERR) (hlog : f.ERRLOG = e.ERRLOG) : Absorbing d f :=
  ⟨h.phase, hstim ▸ h.waits, hphase.trans h.samePhase, herr.trans h.sameErr, hlog.trans h.sameErrlog⟩

theorem Absorbing.after_romSteps {d e : State} (h : Absorbing d e) (n : Nat) : Absorbing d (romSteps n e) :=
  h.of_eq (romSteps_stim n e) (romSteps_PHASE n e) (romSteps_ERR n e) (romSteps_ERRLOG n e)

theorem Absorbing.after_compress {d e : State} (h : Absorbing d e) : Absorbing d (compress e) :=
  h.of_eq (compress_stim e) (compress_PHASE e) (compress_ERR e) (compress_ERRLOG e)

/-- One micro-op of an absorbing core. -/
theorem Absorbing.microOp {d e t : State} {c : Control} (h : Absorbing d e) (hc : c.SEQ ≠ .idle)
    (ht : advance (e.withControl c) (microEffect (e.withControl c)) = t) :
    RunsShowing (busyPorts d) 1 (e.withControl c) t :=
  h.busyPorts_eq ▸ runsShowing_microOp h.waits hc ht

/-! ### A compression (R120, R134) -/

theorem isStep_stepSeq (row : BitVec 43) : (stepSeq row).isStep = true := by
  unfold stepSeq
  repeat' split
  all_goals rfl

theorem Seq.eq_step_of_isStep {q : Seq} (h : q.isStep = true) : q = .stepF ∨ q = .stepG ∨ q = .stepH ∨ q = .stepI := by
  cases q <;> simp [Seq.isStep] at h ⊢

/-- A step micro-op mixes with the ROM row at `i`; SEQ goes to the next row's step, after i = 63 to CEND. -/
theorem advance_of_isStep {s : State} (h : s.SEQ.isStep = true) : advance s (microEffect s) =
    { romStep s with SEQ := if s.i = 63#6 then .cend else stepSeq (romRow (romStep s)) } := by
  obtain hq | hq | hq | hq := Seq.eq_step_of_isStep h
  all_goals
    simp only [advance, microEffect, hq]
    split <;> rfl

/-- One step of a compression. -/
theorem Absorbing.runsShowing_step {d e : State} (h : Absorbing d e) (c : Control) :
    RunsShowing (busyPorts d) 1 (e.withControl { c with SEQ := stepSeq (romRow e) })
      ((romStep e).withControl
        { c with SEQ := if e.i = 63#6 then .cend else stepSeq (romRow (romStep e)) }) := by
  have hs := isStep_stepSeq (romRow e)
  refine h.microOp (fun hq => ?_) (advance_of_isStep hs)
  rw [show stepSeq (romRow e) = .idle from hq] at hs
  cases hs

/-- From the step at `i` on, the steps to i = 63 run and lead to CEND. -/
theorem Absorbing.runsShowing_steps {d e : State} (h : Absorbing d e) (c : Control) {n : Nat}
    (hn : e.i.toNat + n = 63) :
    RunsShowing (busyPorts d) (n + 1) (e.withControl { c with SEQ := stepSeq (romRow e) })
      ((romSteps (n + 1) e).withControl { c with SEQ := .cend }) := by
  have hstep := h.runsShowing_step c
  induction n generalizing e with
  | zero =>
    have hi : e.i = 63#6 := by bv_omega
    rw [if_pos hi] at hstep
    rwa [romSteps_succ, romSteps_zero]
  | succ n ih =>
    have hi : e.i ≠ 63#6 := by bv_omega
    have hnext : (romStep e).i.toNat + n = 63 := by rw [(romStep_of_lt hi).1]; bv_omega
    rw [if_neg hi] at hstep
    rw [romSteps_succ, Nat.add_comm (n + 1) 1]
    have hmixed : Absorbing d (romStep e) := h.of_eq rfl rfl rfl rfl
    exact hstep.trans (ih hmixed hnext (hmixed.runsShowing_step c))

/-- Where CEND leaves the control: the return point decides (R134). -/
def Control.afterCend (c : Control) : Control :=
  match c.caller with
  | .upd => { c with SEQ := .idle }
  | .finFirst => { c with SEQ := .padz, opLo := 0, opHi := 55, caller := .finLast }
  | .finLast => { c with SEQ := .ser }

/-- CEND. -/
theorem Absorbing.runsShowing_cend {d e : State} (h : Absorbing d e) (c : Control) :
    RunsShowing (busyPorts d) 1 (e.withControl { c with SEQ := .cend })
      ((endCompress e).withControl c.afterCend) := by
  refine h.microOp (by simp) ?_
  cases hc : c.caller <;> simp only [advance, Control.afterCend, withControl_SEQ, withControl_caller, hc] <;> rfl

/-- CBEG, the 64 steps and CEND are Compress, in 66 micro-ops. -/
theorem Absorbing.runsShowing_compress {d e : State} (h : Absorbing d e) (c : Control) :
    RunsShowing (busyPorts d) 66 (e.withControl { c with SEQ := .cbeg })
      ((compress e).withControl c.afterCend) := by
  have hbegin : Absorbing d (beginCompress e) := h.of_eq rfl rfl rfl rfl
  have hsteps := hbegin.runsShowing_steps c (n := 63) rfl
  have hcbeg : RunsShowing (busyPorts d) 1 (e.withControl { c with SEQ := .cbeg })
      ((beginCompress e).withControl { c with SEQ := stepSeq (romRow (beginCompress e)) }) :=
    h.microOp (by simp) rfl
  rw [compress]
  have hcend := (hbegin.after_romSteps (63 + 1)).runsShowing_cend c
  generalize romSteps (63 + 1) (beginCompress e) = m at hsteps hcend ⊢
  exact (hcbeg.trans hsteps).trans hcend

/-! ### UPD (R102) and FIN (R150) -/

/-- ABSB, and Compress when the buffer is full, are UPD. -/
theorem Absorbing.runsShowing_upd {d : State} (h : Absorbing d d) (c : Control) (x : Byte) :
    ∃ n c', n ≤ 137 ∧ c'.SEQ = .idle ∧
      RunsShowing (busyPorts d) n (d.withControl { c with SEQ := .absb, opData := x })
        ((updBody x d).withControl c') := by
  by_cases hlen : d.LEN = 63#6
  · rw [updBody, if_pos hlen]
    have habsb : RunsShowing (busyPorts d) 1 (d.withControl { c with SEQ := .absb, opData := x })
        ((absorbByte x d).withControl { c with SEQ := .cbeg, opData := x, caller := .upd }) := by
      refine h.microOp (by simp) ?_
      simp only [advance, withControl_SEQ, withControl_LEN, if_pos hlen]
      rfl
    have hnext : Absorbing d (absorbByte x d) := h.of_eq rfl rfl rfl rfl
    exact ⟨1 + 66, _, by omega, rfl, habsb.trans (hnext.runsShowing_compress { c with opData := x, caller := .upd })⟩
  · rw [updBody, if_neg hlen]
    refine ⟨1, { c with SEQ := .idle, opData := x }, by omega, rfl, h.microOp (by simp) ?_⟩
    simp only [advance, withControl_SEQ, withControl_LEN, if_neg hlen]
    rfl

/-- The last final block from its PADZ on: PADZ, PADL, Compress, SER. -/
theorem Absorbing.runsShowing_lastBlock {d e : State} (h : Absorbing d e) (c : Control) :
    RunsShowing (busyPorts d) 69 (e.withControl { c with SEQ := .padz, caller := .finLast })
      ((freeLen (serialise (compress (padLength (padZeros c.opLo.toNat c.opHi.toNat e))))).withControl
        { c with SEQ := .idle, caller := .finLast }) := by
  have hpadz : RunsShowing (busyPorts d) 1 (e.withControl { c with SEQ := .padz, caller := .finLast })
      ((padZeros c.opLo.toNat c.opHi.toNat e).withControl { c with SEQ := .padl, caller := .finLast }) :=
    h.microOp (by simp) rfl
  have hz : Absorbing d (padZeros c.opLo.toNat c.opHi.toNat e) := h.of_eq rfl rfl rfl rfl
  generalize padZeros c.opLo.toNat c.opHi.toNat e = z at hpadz hz ⊢
  have hpadl : RunsShowing (busyPorts d) 1 (z.withControl { c with SEQ := .padl, caller := .finLast })
      ((padLength z).withControl { c with SEQ := .cbeg, caller := .finLast }) :=
    hz.microOp (by simp) rfl
  have hl : Absorbing d (padLength z) := hz.of_eq rfl rfl rfl rfl
  have hcompress := hl.runsShowing_compress { c with caller := .finLast }
  have hk := hl.after_compress
  generalize compress (padLength z) = k at hcompress hk ⊢
  have hser : RunsShowing (busyPorts d) 1 (k.withControl { c with SEQ := .ser, caller := .finLast })
      ((freeLen (serialise k)).withControl { c with SEQ := .idle, caller := .finLast }) := by
    refine hk.microOp (by simp) ?_
    simp only [advance, microEffect, withControl_SEQ]
    rw [serialise_withControl, freeLen_withControl, withControl_withSEQ]
  exact ((hpadz.trans hpadl).trans hcompress).trans hser

/-- The lower bound of the PADZ after PAD80 is `L + 1`, which its seven bits hold. -/
theorem toNat_setWidth_add_one (len : BitVec 6) : (len.setWidth 7 + 1).toNat = len.toNat + 1 := by
  have := len.isLt
  bv_omega

/-- FIN with one final block: PAD80 and the last block. -/
theorem Absorbing.runsShowing_oneBlock {d : State} (h : Absorbing d d) (c : Control) (hlen : d.LEN.toNat ≤ 55) :
    RunsShowing (busyPorts d) 70 (d.withControl { c with SEQ := .pad80 })
      ((freeLen (serialise (compress (onlyBlock d)))).withControl
        { c with SEQ := .idle, opLo := d.LEN.setWidth 7 + 1, opHi := 55, caller := .finLast }) := by
  have hpad80 : RunsShowing (busyPorts d) 1 (d.withControl { c with SEQ := .pad80 }) ((pad80 d).withControl
      { c with SEQ := .padz, opLo := d.LEN.setWidth 7 + 1, opHi := 55, caller := .finLast }) := by
    refine h.microOp (by simp) ?_
    simp only [advance, withControl_SEQ, withControl_LEN, if_pos hlen]
    rfl
  have hp : Absorbing d (pad80 d) := h.of_eq rfl rfl rfl rfl
  have hlast := hp.runsShowing_lastBlock { c with opLo := d.LEN.setWidth 7 + 1, opHi := 55 }
  rw [toNat_setWidth_add_one] at hlast
  exact hpad80.trans hlast

/-- FIN with two final blocks: PAD80, PADZ, Compress and the last block. -/
theorem Absorbing.runsShowing_twoBlocks {d : State} (h : Absorbing d d) (c : Control) (hlen : ¬d.LEN.toNat ≤ 55) :
    RunsShowing (busyPorts d) 137 (d.withControl { c with SEQ := .pad80 })
      ((freeLen (serialise (compress (secondBlock (compress (firstBlock d)))))).withControl
        { c with SEQ := .idle, opLo := 0, opHi := 55, caller := .finLast }) := by
  have hpad80 : RunsShowing (busyPorts d) 1 (d.withControl { c with SEQ := .pad80 }) ((pad80 d).withControl
      { c with SEQ := .padz, opLo := d.LEN.setWidth 7 + 1, opHi := 63, caller := .finFirst }) := by
    refine h.microOp (by simp) ?_
    simp only [advance, withControl_SEQ, withControl_LEN, if_neg hlen]
    rfl
  have hp : Absorbing d (pad80 d) := h.of_eq rfl rfl rfl rfl
  have hpadz : RunsShowing (busyPorts d) 1 ((pad80 d).withControl
      { c with SEQ := .padz, opLo := d.LEN.setWidth 7 + 1, opHi := 63, caller := .finFirst })
      ((padZeros (d.LEN.setWidth 7 + 1).toNat 63 (pad80 d)).withControl
        { c with SEQ := .cbeg, opLo := d.LEN.setWidth 7 + 1, opHi := 63, caller := .finFirst }) :=
    hp.microOp (by simp) rfl
  rw [toNat_setWidth_add_one] at hpadz
  have hf : Absorbing d (firstBlock d) := h.of_eq rfl rfl rfl rfl
  have hcompress := hf.runsShowing_compress { c with opLo := d.LEN.setWidth 7 + 1, opHi := 63, caller := .finFirst }
  have hk := hf.after_compress
  rw [secondBlock]
  generalize compress (firstBlock d) = k at hcompress hk ⊢
  have hlast := hk.runsShowing_lastBlock { c with opLo := 0, opHi := 55 }
  exact ((hpad80.trans hpadz).trans hcompress).trans hlast

/-- PAD80 and its successors are FIN, with one final block or two (R154). -/
theorem Absorbing.runsShowing_fin {d : State} (h : Absorbing d d) (c : Control) :
    ∃ n c', n ≤ 137 ∧ c'.SEQ = .idle ∧
      RunsShowing (busyPorts d) n (d.withControl { c with SEQ := .pad80 }) ((finBody d).withControl c') := by
  by_cases hlen : d.LEN.toNat ≤ 55
  · rw [finBody, if_pos hlen]
    exact ⟨70, _, by omega, rfl, h.runsShowing_oneBlock c hlen⟩
  · rw [finBody, if_neg hlen]
    exact ⟨137, _, by omega, rfl, h.runsShowing_twoBlocks c hlen⟩

/-! ### O47: the levels agree -/

/-- UPD and FIN run in phase ABSORB only (R100). -/
theorem phase_of_commandAction {w : BitVec 10} {s : State}
    (h : (∃ x, commandAction w s = .absorb x) ∨ commandAction w s = .finalize) : s.PHASE = .absorb := by
  by_contra hp
  obtain hp | hp : s.PHASE = .done ∨ s.PHASE = .fault := by cases hq : s.PHASE <;> simp [hq] at hp ⊢
  all_goals
    obtain hd | hd | hd | hd := decodeCmd_cases w <;>
      simp [commandAction, hd, initAction, updAction, finAction, illegalAction, hp] at h

/-- The micro-ops a command starts bring the registers where the command level's whole transition does. -/
theorem runsShowing_startAction (w : BitVec 10) {d : State} (hq : d.SEQ = .idle) (hw : HostWaits d.stim) :
    ∃ n c, n ≤ 137 ∧ c.SEQ = .idle ∧ RunsShowing (busyPorts d) n (startAction (commandAction w d) d)
      ((perform (commandAction w d) d).withControl c) := by
  cases ha : commandAction w d with
  | discard => exact ⟨0, control d, by omega, hq, (withControl_control d).symm⟩
  | load =>
    exact ⟨1, { control d with SEQ := .idle }, by omega, rfl,
      runsShowing_microOp (c := { control d with SEQ := .ldiv }) hw (by simp) rfl⟩
  | raise cause =>
    exact ⟨1, { control d with SEQ := .idle, opCause := cause }, by omega, rfl,
      runsShowing_microOp (c := { control d with SEQ := .flt, opCause := cause }) hw (by simp) rfl⟩
  | absorb x => exact (Absorbing.refl (phase_of_commandAction (.inl ⟨x, ha⟩)) hw).runsShowing_upd (control d) x
  | finalize => exact (Absorbing.refl (phase_of_commandAction (.inr ha)) hw).runsShowing_fin (control d)

/-- Settles O47: acceptance, then the command's micro-ops; a micro-op computes on the registers what the command level
computes, and until the last one nothing that a port shows is written. -/
theorem microLevelAgreesWithCommandLevel : Obligations.MicroLevelAgreesWithCommandLevel := by
  unfold Obligations.MicroLevelAgreesWithCommandLevel
  intro s u w rest hq hl hs hw hu
  obtain ⟨n, c, hn, hc, hrun⟩ := runsShowing_startAction w (d := { s with stim := rest }) hq hw
  rw [commandAction_congr (s := s) (t := { s with stim := rest }) w rfl rfl] at hrun
  have hmicro := step_micro hq hl hs
  have hcommand : u = (perform (commandAction w s) { s with stim := rest }).withControl
      { control s with level := .command } := by
    rw [step_command (s := { s with level := .command }) hq rfl hs, Host.Outcome.next.injEq,
      commandAction_congr (s := s) (t := { s with level := .command }) w rfl rfl] at hu
    rw [← hu, ← perform_withControl]
    rfl
  refine ⟨n + 1, _, by omega, by omega, ⟨_, hmicro, hrun.runs⟩, hc, ?_, fun k v hk hkn hv => ?_⟩
  · rw [hcommand]
    exact forgetMicro_withControl _ (hc.trans hq.symm)
  · obtain ⟨k, rfl⟩ : ∃ m, k = m + 1 := ⟨k - 1, by omega⟩
    obtain ⟨v', hv', hv⟩ := hv
    rw [hmicro, Host.Outcome.next.injEq] at hv'
    subst hv'
    exact hrun.ports_eq (by omega) hv

end Sys2Proof.Machine
end

section
/-! PROOFS. The registers of 10_state: the invariant holds at reset and every step keeps it. -/

namespace Sys2Proof.Machine

/-! ### Listed bytes -/

/-- `m` is canonical, with every address below `bound` (R51, R54; log entry 6). -/
def Memory.InSpace (m : Memory) (bound : Nat) : Prop := m.wf = true ∧ m.within bound = true

theorem Memory.inSpace_nil (bound : Nat) : Memory.InSpace [] bound := ⟨Memory.wf_nil, Memory.within_nil bound⟩

theorem Memory.InSpace.write {m : Memory} {bound addr : Nat} (h : m.InSpace bound) (haddr : addr < bound) (v : Byte) :
    (m.write addr v).InSpace bound :=
  ⟨Memory.wf_write addr v h.1, Memory.within_write v haddr h.2⟩

theorem Memory.InSpace.writeBytes {m : Memory} {bound addr : Nat} {bytes : List Byte} (h : m.InSpace bound)
    (haddr : addr + bytes.length ≤ bound) : (m.writeBytes addr bytes).InSpace bound :=
  ⟨Memory.wf_writeBytes addr bytes h.1, Memory.within_writeBytes bytes haddr h.2⟩

theorem Memory.InSpace.zeroFill {m : Memory} {bound lo hi : Nat} (h : m.InSpace bound) (hhi : hi < bound) :
    (m.zeroFill lo hi).InSpace bound :=
  ⟨Memory.wf_zeroFill lo hi h.1, Memory.within_zeroFill hhi h.2⟩

/-- A store lists its own addresses and keeps the listed ones. -/
theorem Memory.ListedBelow.writeBytes {m : Memory} {n addr bound : Nat} {bytes : List Byte} (h : m.ListedBelow n)
    (hb : ∀ j, j < bound → j < n ∨ (addr ≤ j ∧ j < addr + bytes.length)) :
    (m.writeBytes addr bytes).ListedBelow bound := by
  intro j hj
  rw [Memory.read_writeBytes]
  split
  · next hin => rw [List.getElem?_eq_getElem (by omega)]; rfl
  · next hout => exact h j ((hb j hj).resolve_right hout)

theorem Memory.ListedBelow.write {m : Memory} {n addr bound : Nat} (h : m.ListedBelow n) (v : Byte)
    (hb : ∀ j, j < bound → j < n ∨ j = addr) : (m.write addr v).ListedBelow bound := by
  intro j hj
  rw [Memory.read_write]
  split
  · rfl
  · next hne => exact h j ((hb j hj).resolve_right hne)

theorem Memory.ListedBelow.zeroFill {m : Memory} {n lo hi bound : Nat} (h : m.ListedBelow n)
    (hb : ∀ j, j < bound → j < n ∨ (lo ≤ j ∧ j ≤ hi)) : (m.zeroFill lo hi).ListedBelow bound := by
  intro j hj
  rw [Memory.read_zeroFill]
  split
  · rfl
  · next hout => exact h j ((hb j hj).resolve_right hout)

/-! ### The invariant, by phase and by micro-op

`Inv` in two parts: what holds of the registers at every clock edge, by PHASE, and what the micro-op in SEQ finds. -/

/-- The registers of an absorbing Accumulator (R29, R31, R34, R60). -/
structure AbsorbOk (s : State) : Prop where
  noErr : s.ERR = .none
  len : s.LEN.toNat = s.CNT.toNat % 64
  pending : s.BUF.ListedBelow s.LEN.toNat
  noDigest : s.DIG = []

/-- The registers of a core that holds a digest (R31, R34). -/
structure DoneOk (s : State) : Prop where
  noErr : s.ERR = .none
  digest : s.DIG.InSpace 16
  listed : s.DIG.ListedBelow 16

/-- The registers of a faulted core (R31, R34, R176). -/
structure FaultOk (s : State) : Prop where
  logged : ∃ cause : Cause, s.ERR = cause.err ∧ s.ERRLOG &&& cause.logBit = cause.logBit
  noDigest : s.DIG = []

/-- What PHASE asks of the registers. -/
def PhaseOk (s : State) : Prop :=
  match s.PHASE with
  | .absorb => AbsorbOk s
  | .done => DoneOk s
  | .fault => FaultOk s

/-- The clauses of `Inv` that hold whatever the sequencer does. -/
structure RegistersOk (s : State) : Prop where
  rom : s.ROM = romTable
  buf : s.BUF.InSpace 64
  count : s.CNT.toNat ≤ 2 ^ 61 - 1
  phase : PhaseOk s

/-- What the micro-op in SEQ finds when it starts (R102, R150, R66). -/
def MicroOpOk (s : State) : Prop :=
  match s.SEQ with
  | .idle | .ldiv | .flt | .pad80 | .ser => True
  | .absb => s.CNT.toNat < 2 ^ 61 - 1
  | .padz => s.BUF.ListedBelow s.opLo.toNat ∧ s.opLo.toNat ≤ 64 ∧ s.opHi = (if s.caller = .finFirst then 63 else 55)
  | .padl => s.BUF.ListedBelow 56
  | .cbeg | .stepF | .stepG | .stepH | .stepI | .cend => s.BUF.ListedBelow 64

theorem phaseOk_absorb {s : State} (h : s.PHASE = .absorb) : PhaseOk s ↔ AbsorbOk s := by
  simp only [PhaseOk, h]

theorem phaseOk_done {s : State} (h : s.PHASE = .done) : PhaseOk s ↔ DoneOk s := by
  simp only [PhaseOk, h]

theorem phaseOk_fault {s : State} (h : s.PHASE = .fault) : PhaseOk s ↔ FaultOk s := by
  simp only [PhaseOk, h]

theorem Cause.err_ne_none (cause : Cause) : cause.err ≠ .none := by cases cause <;> decide

theorem Cause.err_injective : Function.Injective Cause.err := by
  intro c c' h
  cases c <;> cases c' <;> simp [Cause.err] at h ⊢

theorem ErrCode.eq_err_of_ne_none {e : ErrCode} (h : e ≠ .none) : ∃ cause : Cause, e = cause.err := by
  cases e with
  | none => exact absurd rfl h
  | misuse => exact ⟨.misuse, rfl⟩
  | overflow => exact ⟨.overflow, rfl⟩
  | illegal => exact ⟨.illegal, rfl⟩

theorem PhaseOk.err_ne_none_iff {s : State} (h : PhaseOk s) : s.ERR ≠ .none ↔ s.PHASE = .fault := by
  cases hp : s.PHASE with
  | absorb => simp [((phaseOk_absorb hp).1 h).noErr]
  | done => simp [((phaseOk_done hp).1 h).noErr]
  | fault =>
    obtain ⟨cause, hc, -⟩ := ((phaseOk_fault hp).1 h).logged
    simp [hc, cause.err_ne_none]

theorem PhaseOk.errLogged {s : State} (h : PhaseOk s) (cause : Cause) (hc : s.ERR = cause.err) :
    s.ERRLOG &&& cause.logBit = cause.logBit := by
  have hp : s.PHASE = .fault := h.err_ne_none_iff.1 (hc ▸ cause.err_ne_none)
  obtain ⟨cause', hc', hlog⟩ := ((phaseOk_fault hp).1 h).logged
  rwa [Cause.err_injective (hc.symm.trans hc')]

theorem PhaseOk.dig_eq_nil {s : State} (h : PhaseOk s) (hp : s.PHASE ≠ .done) : s.DIG = [] := by
  cases hq : s.PHASE with
  | absorb => exact ((phaseOk_absorb hq).1 h).noDigest
  | done => exact absurd hq hp
  | fault => exact ((phaseOk_fault hq).1 h).noDigest

theorem PhaseOk.dig_inSpace {s : State} (h : PhaseOk s) : s.DIG.InSpace 16 := by
  by_cases hp : s.PHASE = .done
  · exact ((phaseOk_done hp).1 h).digest
  · exact h.dig_eq_nil hp ▸ Memory.inSpace_nil 16

theorem Inv.phaseOk {s : State} (h : Inv s) : PhaseOk s := by
  have herr := h.errIffFault
  cases hp : s.PHASE with
  | absorb =>
    exact (phaseOk_absorb hp).2
      ⟨by simpa [hp] using herr, h.lenTracksCount hp, h.pendingListed hp, h.noDigestElse (by simp [hp])⟩
  | done => exact (phaseOk_done hp).2 ⟨by simpa [hp] using herr, h.digCanonical, h.digestWhenDone hp⟩
  | fault =>
    obtain ⟨cause, hc⟩ := ErrCode.eq_err_of_ne_none (herr.2 hp)
    exact (phaseOk_fault hp).2 ⟨⟨cause, hc, h.errLogged cause hc⟩, h.noDigestElse (by simp [hp])⟩

theorem Inv.registersOk {s : State} (h : Inv s) : RegistersOk s :=
  ⟨h.romFixed, h.bufCanonical, h.countInRange, h.phaseOk⟩

theorem Seq.absorbing_of_compressing {q : Seq} (h : q.compressing = true) : q.absorbing = true := by
  cases q <;> simp [Seq.compressing, Seq.isStep] at h <;> rfl

theorem microOpOk_of_compressing {s : State} (h : s.SEQ.compressing = true) : MicroOpOk s ↔ s.BUF.ListedBelow 64 := by
  cases hq : s.SEQ <;> simp [hq, Seq.compressing, Seq.isStep] at h <;> simp only [MicroOpOk, hq]

theorem microOpOk_absb {s : State} (h : s.SEQ = .absb) : MicroOpOk s ↔ s.CNT.toNat < 2 ^ 61 - 1 := by
  simp only [MicroOpOk, h]

theorem microOpOk_padz {s : State} (h : s.SEQ = .padz) : MicroOpOk s ↔ s.BUF.ListedBelow s.opLo.toNat ∧
    s.opLo.toNat ≤ 64 ∧ s.opHi = (if s.caller = .finFirst then 63 else 55) := by
  simp only [MicroOpOk, h]

theorem microOpOk_padl {s : State} (h : s.SEQ = .padl) : MicroOpOk s ↔ s.BUF.ListedBelow 56 := by
  simp only [MicroOpOk, h]

theorem Inv.microOpOk {s : State} (h : Inv s) : MicroOpOk s := by
  by_cases hc : s.SEQ.compressing = true
  · exact (microOpOk_of_compressing hc).2 (h.blockWritten hc)
  · unfold MicroOpOk
    split
    case h_6 hq => exact h.absbBelowMax hq
    case h_7 hq => exact h.padzRange hq
    case h_8 hq => exact h.padlFilled hq
    all_goals next hq => simp [hq, Seq.compressing, Seq.isStep] at hc ⊢

/-- The two parts, and phase ABSORB during UPD and FIN, are the invariant. -/
theorem inv_iff (s : State) :
    Inv s ↔ RegistersOk s ∧ (s.SEQ.absorbing = true → s.PHASE = .absorb) ∧ MicroOpOk s :=
  ⟨fun h => ⟨h.registersOk, h.absorbPhase, h.microOpOk⟩, fun ⟨hr, ha, hm⟩ =>
    { romFixed := hr.rom
      bufCanonical := hr.buf
      digCanonical := hr.phase.dig_inSpace
      countInRange := hr.count
      lenTracksCount := fun hp => ((phaseOk_absorb hp).1 hr.phase).len
      errIffFault := hr.phase.err_ne_none_iff
      errLogged := hr.phase.errLogged
      digestWhenDone := fun hp => ((phaseOk_done hp).1 hr.phase).listed
      noDigestElse := hr.phase.dig_eq_nil
      pendingListed := fun hp => ((phaseOk_absorb hp).1 hr.phase).pending
      absorbPhase := ha
      absbBelowMax := fun hq => (microOpOk_absb hq).1 hm
      padzRange := fun hq => (microOpOk_padz hq).1 hm
      padlFilled := fun hq => (microOpOk_padl hq).1 hm
      blockWritten := fun hc => (microOpOk_of_compressing hc).1 hm }⟩

/-- A core at IDLE, LDIV or FLT meets the invariant when its registers do. -/
theorem RegistersOk.inv {s : State} (h : RegistersOk s) (hq : s.SEQ = .idle ∨ s.SEQ = .ldiv ∨ s.SEQ = .flt) :
    Inv s := by
  refine (inv_iff s).2 ⟨h, ?_, ?_⟩
  · obtain hq | hq | hq := hq <;> simp [hq, Seq.absorbing]
  · obtain hq | hq | hq := hq <;> simp [MicroOpOk, hq]

/-- The invariant of a core that runs an UPD or a FIN. -/
theorem RegistersOk.inv_of_absorb {s : State} (h : RegistersOk s) (hp : s.PHASE = .absorb) (hm : MicroOpOk s) : Inv s :=
  (inv_iff s).2 ⟨h, fun _ => hp, hm⟩

/-- `RegistersOk` reads the registers only. -/
theorem RegistersOk.congr {s t : State} (h : RegistersOk s) (hrom : t.ROM = s.ROM) (hbuf : t.BUF = s.BUF)
    (hdig : t.DIG = s.DIG) (hcounts : SameCounts s t) (hstatus : SameStatus s t) : RegistersOk t := by
  obtain ⟨hcnt, hlen⟩ := hcounts
  obtain ⟨hphase, herr, hlog⟩ := hstatus
  obtain ⟨rom, buf, count, phase⟩ := h
  refine ⟨hrom ▸ rom, hbuf ▸ buf, hcnt ▸ count, ?_⟩
  cases hp : s.PHASE with
  | absorb =>
    obtain ⟨noErr, len, pending, noDigest⟩ := (phaseOk_absorb hp).1 phase
    exact (phaseOk_absorb (hphase.trans hp)).2
      ⟨by rwa [herr], by rwa [hlen, hcnt], by rwa [hbuf, hlen], by rwa [hdig]⟩
  | done =>
    obtain ⟨noErr, digest, listed⟩ := (phaseOk_done hp).1 phase
    exact (phaseOk_done (hphase.trans hp)).2 ⟨by rwa [herr], by rwa [hdig], by rwa [hdig]⟩
  | fault =>
    obtain ⟨logged, noDigest⟩ := (phaseOk_fault hp).1 phase
    exact (phaseOk_fault (hphase.trans hp)).2 ⟨by rwa [herr, hlog], by rwa [hdig]⟩

theorem RegistersOk.withSEQ {s : State} (h : RegistersOk s) (q : Seq) : RegistersOk { s with SEQ := q } :=
  h.congr rfl rfl rfl ⟨rfl, rfl⟩ ⟨rfl, rfl, rfl⟩

/-! ### What the operations make of the registers -/

theorem RegistersOk.after_startAction {s : State} (h : RegistersOk s) (action : Action) :
    RegistersOk (startAction action s) := by
  cases action <;> exact h.congr rfl rfl rfl ⟨rfl, rfl⟩ ⟨rfl, rfl, rfl⟩

theorem RegistersOk.after_beginCompress {s : State} (h : RegistersOk s) : RegistersOk (beginCompress s) :=
  h.congr rfl rfl rfl ⟨rfl, rfl⟩ ⟨rfl, rfl, rfl⟩

theorem RegistersOk.after_romStep {s : State} (h : RegistersOk s) : RegistersOk (romStep s) :=
  h.congr rfl rfl rfl ⟨rfl, rfl⟩ ⟨rfl, rfl, rfl⟩

theorem RegistersOk.after_endCompress {s : State} (h : RegistersOk s) : RegistersOk (endCompress s) :=
  h.congr rfl rfl rfl ⟨rfl, rfl⟩ ⟨rfl, rfl, rfl⟩

/-- A fresh Accumulator (R38). -/
theorem RegistersOk.of_fresh {s : State} (hrom : s.ROM = romTable) (hbuf : s.BUF = []) (hdig : s.DIG = [])
    (hcnt : s.CNT = 0) (hlen : s.LEN = 0) (hphase : s.PHASE = .absorb) (herr : s.ERR = .none) : RegistersOk s where
  rom := hrom
  buf := hbuf ▸ Memory.inSpace_nil 64
  count := by simp [hcnt]
  phase := (phaseOk_absorb hphase).2 ⟨herr, by simp [hcnt, hlen], fun j hj => by simp [hlen] at hj, hdig⟩

theorem RegistersOk.after_createAccumulator {s : State} (h : RegistersOk s) : RegistersOk (createAccumulator s) :=
  .of_fresh h.rom rfl rfl rfl rfl rfl rfl

theorem RegistersOk.after_resetCore {s : State} (h : RegistersOk s) : RegistersOk (resetCore s) :=
  .of_fresh h.rom rfl rfl rfl rfl rfl rfl

theorem RegistersOk.after_raiseFault {s : State} (h : RegistersOk s) (cause : Cause) :
    RegistersOk (raiseFault cause s) where
  rom := h.rom
  buf := h.buf
  count := h.count
  phase := (phaseOk_fault rfl).2 ⟨⟨cause, rfl, by rw [raiseFault_ERRLOG]; ext; simp +contextual⟩, rfl⟩

/-- Stores into BUF that keep the pending bytes, in phase ABSORB. -/
theorem RegistersOk.withBuffer {s : State} (h : RegistersOk s) (hp : s.PHASE = .absorb) {m : Memory}
    (hspace : m.InSpace 64) (hlisted : m.ListedBelow s.LEN.toNat) : RegistersOk { s with BUF := m } := by
  obtain ⟨herr, hlen, -, hdig⟩ := (phaseOk_absorb hp).1 h.phase
  exact ⟨h.rom, hspace, h.count, (phaseOk_absorb (s := { s with BUF := m }) hp).2 ⟨herr, hlen, hlisted, hdig⟩⟩

theorem RegistersOk.pendingListed {s : State} (h : RegistersOk s) (hp : s.PHASE = .absorb) :
    s.BUF.ListedBelow s.LEN.toNat := ((phaseOk_absorb hp).1 h.phase).pending

theorem RegistersOk.after_pad80 {s : State} (h : RegistersOk s) (hp : s.PHASE = .absorb) : RegistersOk (pad80 s) :=
  h.withBuffer hp (h.buf.write s.LEN.isLt 0x80) ((h.pendingListed hp).write 0x80 fun _ hj => .inl hj)

theorem RegistersOk.after_padZeros {s : State} (h : RegistersOk s) (hp : s.PHASE = .absorb) (lo : Nat) {hi : Nat}
    (hhi : hi < 64) : RegistersOk (padZeros lo hi s) :=
  h.withBuffer hp (h.buf.zeroFill hhi) ((h.pendingListed hp).zeroFill fun _ hj => .inl hj)

theorem RegistersOk.after_padLength {s : State} (h : RegistersOk s) (hp : s.PHASE = .absorb) :
    RegistersOk (padLength s) :=
  h.withBuffer hp (h.buf.writeBytes (by simp)) ((h.pendingListed hp).writeBytes fun _ hj => .inl hj)

/-- ABSB below MAX_BYTES: one more byte is pending, or none when the block is full (R107). -/
theorem RegistersOk.after_absorbByte {s : State} (h : RegistersOk s) (hp : s.PHASE = .absorb)
    (hmax : s.CNT.toNat < 2 ^ 61 - 1) (x : Byte) : RegistersOk (absorbByte x s) := by
  obtain ⟨herr, hlen, hpend, hdig⟩ := (phaseOk_absorb hp).1 h.phase
  have hcnt : (s.CNT + 1).toNat = s.CNT.toNat + 1 := by bv_omega
  have hlen' : (s.LEN + 1).toNat = (s.LEN.toNat + 1) % 64 := by bv_omega
  refine ⟨h.rom, h.buf.write s.LEN.isLt x, ?_, (phaseOk_absorb (s := absorbByte x s) hp).2 ⟨herr, ?_, ?_, hdig⟩⟩
  · rw [absorbByte_CNT, hcnt]; omega
  · rw [absorbByte_CNT, absorbByte_LEN, hcnt, hlen']; omega
  · rw [absorbByte_BUF, absorbByte_LEN, hlen']
    exact hpend.write x fun j hj => by omega

theorem RegistersOk.after_compress {s : State} (h : RegistersOk s) : RegistersOk (compress s) :=
  h.congr (compress_ROM s) (compress_BUF s) (compress_DIG s) ⟨compress_CNT s, compress_LEN s⟩
    ⟨compress_PHASE s, compress_ERR s, compress_ERRLOG s⟩

@[simp] theorem serialBytes_length (h : Chain) : (serialBytes h).length = 16 := by simp [serialBytes]

/-- SER in phase ABSORB, and LEN undef with it (R155, R29). -/
theorem RegistersOk.after_serialise {s : State} (h : RegistersOk s) (hp : s.PHASE = .absorb) :
    RegistersOk (freeLen (serialise s)) where
  rom := h.rom
  buf := h.buf
  count := h.count
  phase := (phaseOk_done rfl).2
    ⟨((phaseOk_absorb hp).1 h.phase).noErr, h.phase.dig_inSpace.writeBytes (by simp),
      Memory.ListedBelow.writeBytes (n := 0) (fun j hj => by omega) (by simp)⟩

theorem RegistersOk.after_updBody {s : State} (h : RegistersOk s) (hp : s.PHASE = .absorb)
    (hmax : s.CNT.toNat < 2 ^ 61 - 1) (x : Byte) : RegistersOk (updBody x s) := by
  have ha := h.after_absorbByte hp hmax x
  unfold updBody
  split
  · exact ha.after_compress
  · exact ha

theorem RegistersOk.after_onlyBlock {s : State} (h : RegistersOk s) (hp : s.PHASE = .absorb) :
    RegistersOk (onlyBlock s) :=
  ((h.after_pad80 hp).after_padZeros hp _ (by omega)).after_padLength hp

theorem RegistersOk.after_firstBlock {s : State} (h : RegistersOk s) (hp : s.PHASE = .absorb) :
    RegistersOk (firstBlock s) :=
  (h.after_pad80 hp).after_padZeros hp _ (by omega)

/-- Compress and SER of the last final block (R150). -/
theorem RegistersOk.after_lastBlock {s : State} (h : RegistersOk s) (hp : s.PHASE = .absorb) :
    RegistersOk (freeLen (serialise (compress s))) := by
  have hphase : (compress s).PHASE = .absorb := (compress_PHASE s).trans hp
  exact h.after_compress.after_serialise hphase

/-- The second of two final blocks (R150). -/
theorem RegistersOk.after_secondBlock {s : State} (h : RegistersOk s) (hp : s.PHASE = .absorb) :
    RegistersOk (freeLen (serialise (compress (secondBlock s)))) :=
  ((h.after_padZeros hp _ (by omega)).after_padLength hp).after_lastBlock hp

theorem RegistersOk.after_finBody {s : State} (h : RegistersOk s) (hp : s.PHASE = .absorb) :
    RegistersOk (finBody s) := by
  unfold finBody
  split
  · exact (h.after_onlyBlock hp).after_lastBlock hp
  · exact (h.after_firstBlock hp).after_compress.after_secondBlock ((compress_PHASE (firstBlock s)).trans hp)

/-! ### Acceptance of a command -/

/-- An UPD that passes the OVERFLOW test is in phase ABSORB below MAX_BYTES (R102). -/
theorem cnt_of_commandAction_absorb {w : BitVec 10} {s : State} {x : Byte} (h : commandAction w s = .absorb x) :
    s.CNT ≠ maxBytes := by
  intro hc
  have hp := phase_of_commandAction (.inl ⟨x, h⟩)
  obtain hd | hd | hd | hd := decodeCmd_cases w <;>
    simp [commandAction, hd, initAction, updAction, finAction, illegalAction, hp, hc] at h

theorem RegistersOk.cnt_lt {s : State} (h : RegistersOk s) (hc : s.CNT ≠ maxBytes) : s.CNT.toNat < 2 ^ 61 - 1 := by
  have hcount := h.count
  have hne : s.CNT.toNat ≠ maxBytes.toNat := fun he => hc (BitVec.eq_of_toNat_eq he)
  have : maxBytes.toNat = 2 ^ 61 - 1 := rfl
  omega

theorem RegistersOk.after_perform {s : State} (h : RegistersOk s) (w : BitVec 10) :
    RegistersOk (perform (commandAction w s) s) := by
  cases ha : commandAction w s with
  | discard => exact h
  | load => exact h.after_createAccumulator
  | raise cause => exact h.after_raiseFault cause
  | absorb x =>
    exact h.after_updBody (phase_of_commandAction (.inl ⟨x, ha⟩)) (h.cnt_lt (cnt_of_commandAction_absorb ha)) x
  | finalize => exact h.after_finBody (phase_of_commandAction (.inr ha))

/-- A command that starts finds what its first micro-op needs. -/
theorem Inv.after_startAction {s : State} (h : Inv s) (w : BitVec 10) : Inv (startAction (commandAction w s) s) := by
  have hr := h.registersOk.after_startAction (commandAction w s)
  cases ha : commandAction w s <;> rw [ha] at hr
  case discard => exact h
  case load => exact hr.inv (.inr (.inl rfl))
  case raise cause => exact hr.inv (.inr (.inr rfl))
  case absorb x =>
    exact hr.inv_of_absorb (phase_of_commandAction (.inl ⟨x, ha⟩))
      (h.registersOk.cnt_lt (cnt_of_commandAction_absorb ha))
  case finalize => exact hr.inv_of_absorb (phase_of_commandAction (.inr ha)) trivial

/-! ### The micro-ops of a busy core -/

/-- The advance writes no register, except after LDIV and SER. -/
theorem RegistersOk.after_advance {s t : State} (h : RegistersOk t) (hl : s.SEQ ≠ .ldiv) (hs : s.SEQ ≠ .ser) :
    RegistersOk (advance s t) :=
  h.congr (advance_ROM s t) (advance_BUF t hl) (advance_DIG s t) ⟨advance_CNT s t, advance_LEN t hs⟩
    ⟨advance_PHASE s t, advance_ERR s t, advance_ERRLOG s t⟩

theorem compressing_of_isStep {q : Seq} (h : q.isStep = true) : q.compressing = true := by
  obtain rfl | rfl | rfl | rfl := Seq.eq_step_of_isStep h <;> rfl

/-- SEQ goes on inside the compression: no byte of BUF is taken away (R66). -/
theorem Inv.within_compression {s t : State} {q : Seq} (h : Inv s) (hs : s.SEQ.compressing = true)
    (hq : q.compressing = true) (ht : RegistersOk t) (hphase : t.PHASE = s.PHASE) (hbuf : t.BUF = s.BUF) :
    Inv { t with SEQ := q } := by
  have hp : t.PHASE = .absorb := hphase.trans (h.absorbPhase (Seq.absorbing_of_compressing hs))
  refine (ht.withSEQ q).inv_of_absorb hp ((microOpOk_of_compressing hq).2 ?_)
  exact hbuf ▸ h.blockWritten hs

theorem Inv.after_cbeg {s : State} (h : Inv s) (hq : s.SEQ = .cbeg) : Inv (advance s (microEffect s)) := by
  have hnext : advance s (microEffect s) =
      { beginCompress s with SEQ := stepSeq (romRow (beginCompress s)) } := by simp only [advance, microEffect, hq]
  rw [hnext]
  exact h.within_compression (by rw [hq]; rfl) (compressing_of_isStep (isStep_stepSeq _))
    h.registersOk.after_beginCompress rfl rfl

theorem Inv.after_step {s : State} (h : Inv s) (hq : s.SEQ.isStep = true) : Inv (advance s (microEffect s)) := by
  rw [advance_of_isStep hq]
  refine h.within_compression (compressing_of_isStep hq) ?_ h.registersOk.after_romStep rfl rfl
  split
  · rfl
  · exact compressing_of_isStep (isStep_stepSeq _)

/-- CEND goes back to its caller; the second final block starts with PADZ(0, 55) (R150). -/
theorem Inv.after_cend {s : State} (h : Inv s) (hq : s.SEQ = .cend) : Inv (advance s (microEffect s)) := by
  have hr : RegistersOk (advance s (endCompress s)) :=
    h.registersOk.after_endCompress.after_advance (by simp [hq]) (by simp [hq])
  have hp : s.PHASE = .absorb := h.absorbPhase (by rw [hq]; rfl)
  cases hc : s.caller <;> simp only [advance, microEffect, hq, hc] at hr ⊢
  case upd => exact hr.inv (.inl rfl)
  case finFirst => exact hr.inv_of_absorb hp ⟨fun j hj => absurd hj (Nat.not_lt_zero j), Nat.zero_le _, rfl⟩
  case finLast => exact hr.inv_of_absorb hp trivial

theorem Inv.after_absb {s : State} (h : Inv s) (hq : s.SEQ = .absb) : Inv (advance s (microEffect s)) := by
  have hp : s.PHASE = .absorb := h.absorbPhase (by rw [hq]; rfl)
  have hr : RegistersOk (advance s (absorbByte s.opData s)) :=
    (h.registersOk.after_absorbByte hp (h.absbBelowMax hq) s.opData).after_advance (by simp [hq]) (by simp [hq])
  by_cases hlen : s.LEN = 63#6 <;> simp only [advance, microEffect, hq, hlen, if_true, if_false] at hr ⊢
  · refine hr.inv_of_absorb hp (?_ : (s.BUF.write s.LEN.toNat s.opData).ListedBelow 64)
    have hpend := h.pendingListed hp
    rw [hlen] at hpend ⊢
    exact hpend.write s.opData fun j hj => by simp; omega
  · exact hr.inv (.inl rfl)

/-- After PAD80 the bytes 0 .. LEN are written, and PADZ starts at LEN + 1 (R150, R154). -/
theorem Inv.after_pad80 {s : State} (h : Inv s) (hq : s.SEQ = .pad80) : Inv (advance s (microEffect s)) := by
  have hp : s.PHASE = .absorb := h.absorbPhase (by rw [hq]; rfl)
  have hr : RegistersOk (advance s (pad80 s)) :=
    (h.registersOk.after_pad80 hp).after_advance (by simp [hq]) (by simp [hq])
  have hlisted : (pad80 s).BUF.ListedBelow (s.LEN.setWidth 7 + 1).toNat := by
    rw [toNat_setWidth_add_one]
    exact (h.pendingListed hp).write 0x80 fun j hj => by omega
  have hle : (s.LEN.setWidth 7 + 1).toNat ≤ 64 := by
    rw [toNat_setWidth_add_one]
    exact s.LEN.isLt
  by_cases hlen : s.LEN.toNat ≤ 55 <;> simp only [advance, microEffect, hq, hlen, if_true, if_false] at hr ⊢
  · exact hr.inv_of_absorb hp ⟨hlisted, hle, rfl⟩
  · exact hr.inv_of_absorb hp ⟨hlisted, hle, rfl⟩

/-- PADZ fills the first of two blocks up to its end, the last block up to the length field (R150). -/
theorem Inv.after_padz {s : State} (h : Inv s) (hq : s.SEQ = .padz) : Inv (advance s (microEffect s)) := by
  have hp : s.PHASE = .absorb := h.absorbPhase (by rw [hq]; rfl)
  obtain ⟨hlisted, hlo, hhi⟩ := h.padzRange hq
  have hr : RegistersOk (advance s (padZeros s.opLo.toNat s.opHi.toNat s)) :=
    (h.registersOk.after_padZeros hp s.opLo.toNat s.opHi.isLt).after_advance (by simp [hq]) (by simp [hq])
  have hfilled : ∀ bound, bound ≤ s.opHi.toNat + 1 →
      (padZeros s.opLo.toNat s.opHi.toNat s).BUF.ListedBelow bound :=
    fun bound hb => hlisted.zeroFill fun j hj => by omega
  cases hc : s.caller <;> simp only [advance, microEffect, hq, hc] at hr ⊢
  case finFirst => exact hr.inv_of_absorb hp (hfilled 64 (by simp [hhi, hc]))
  case upd => exact hr.inv_of_absorb hp (hfilled 56 (by simp [hhi, hc]))
  case finLast => exact hr.inv_of_absorb hp (hfilled 56 (by simp [hhi, hc]))

theorem Inv.after_padl {s : State} (h : Inv s) (hq : s.SEQ = .padl) : Inv (advance s (microEffect s)) := by
  have hp : s.PHASE = .absorb := h.absorbPhase (by rw [hq]; rfl)
  have hr : RegistersOk (advance s (padLength s)) :=
    (h.registersOk.after_padLength hp).after_advance (by simp [hq]) (by simp [hq])
  simp only [advance, microEffect, hq] at hr ⊢
  exact hr.inv_of_absorb hp ((h.padlFilled hq).writeBytes fun j hj => by rw [bytesLE_length]; omega)

theorem Inv.after_microOp {s : State} (h : Inv s) (hbusy : s.SEQ ≠ .idle) : Inv (advance s (microEffect s)) := by
  have hr := h.registersOk
  cases hq : s.SEQ with
  | idle => exact absurd hq hbusy
  | ldiv =>
    have hnext : advance s (microEffect s) = { createAccumulator s with SEQ := .idle } := by
      simp only [advance, microEffect, hq]; rfl
    rw [hnext]
    exact (hr.after_createAccumulator.withSEQ .idle).inv (.inl rfl)
  | absb => exact h.after_absb hq
  | cbeg => exact h.after_cbeg hq
  | stepF => exact h.after_step (by rw [hq]; rfl)
  | stepG => exact h.after_step (by rw [hq]; rfl)
  | stepH => exact h.after_step (by rw [hq]; rfl)
  | stepI => exact h.after_step (by rw [hq]; rfl)
  | cend => exact h.after_cend hq
  | pad80 => exact h.after_pad80 hq
  | padz => exact h.after_padz hq
  | padl => exact h.after_padl hq
  | ser =>
    have hp : s.PHASE = .absorb := h.absorbPhase (by rw [hq]; rfl)
    simp only [advance, microEffect, hq]
    exact ((hr.after_serialise hp).withSEQ .idle).inv (.inl rfl)
  | flt =>
    simp only [advance, microEffect, hq]
    exact ((hr.after_raiseFault s.opCause).withSEQ .idle).inv (.inl rfl)

/-! ### O40 and O41: the invariant holds at reset and is kept -/

/-- Settles O40: the reset state is a fresh Accumulator. -/
theorem resetMeetsTheInvariant : Obligations.ResetMeetsTheInvariant := by
  unfold Obligations.ResetMeetsTheInvariant
  exact (RegistersOk.of_fresh (s := State.reset) rfl rfl rfl rfl rfl rfl rfl).inv (.inl rfl)

/-- Settles O41: a step resets, lets an edge pass, performs or starts a command, or runs a micro-op. -/
theorem everyStepKeepsTheInvariant : Obligations.EveryStepKeepsTheInvariant := by
  unfold Obligations.EveryStepKeepsTheInvariant
  intro s t h ht
  obtain ⟨rest, -, rfl⟩ | ⟨-, -, rfl⟩ | ⟨-, rest, -, rfl⟩ | ⟨hq, -, w, rest, -, rfl⟩ | ⟨-, -, w, rest, -, rfl⟩ |
    ⟨hq, -, rfl⟩ := step_cases ht
  · exact (h.withStim rest).registersOk.after_resetCore.inv (.inl rfl)
  · exact h
  · exact h.withStim rest
  · have hw := commandAction_congr (s := s) (t := { s with stim := rest }) w rfl rfl
    have hseq : (perform (commandAction w s) { s with stim := rest }).SEQ = s.SEQ :=
      congrArg Control.SEQ (control_perform _ { s with stim := rest })
    exact (hw ▸ (h.withStim rest).registersOk.after_perform w).inv (.inl (hseq.trans hq))
  · rw [← commandAction_congr (s := s) (t := { s with stim := rest }) w rfl rfl]
    exact (h.withStim rest).after_startAction w
  · exact (h.withStim _).after_microOp hq

/-! ### O6, O9, O10: reset and one step -/

/-- Settles O6, field by field. -/
theorem resetStateIsTheTable : Obligations.ResetStateIsTheTable := by
  unfold Obligations.ResetStateIsTheTable
  exact ⟨rfl, rfl, rfl, rfl, rfl, rfl, Memory.read_nil, Memory.read_nil, rfl, rfl, rfl, rfl, rfl, rfl⟩

/-- Settles O9: the idle core accepts the word, and at the command level acceptance is `exec`. -/
theorem commandStepRunsTheDecodedInstruction : Obligations.CommandStepRunsTheDecodedInstruction := by
  unfold Obligations.CommandStepRunsTheDecodedInstruction
  intro s w rest i hs hw hd
  obtain ⟨hq, hl⟩ := hs
  refine ⟨by simp [cmdReady, rstPin, hq, hw], ?_⟩
  rw [step_accept hq hw]
  simp only [acceptWord, hl, hd]

/-- Settles O10: `exec` of the fetched word is the effect of the micro-op in SEQ. -/
theorem busyStepRunsTheFetchedMicroOp : Obligations.BusyStepRunsTheFetchedMicroOp := by
  unfold Obligations.BusyStepRunsTheFetchedMicroOp
  intro s i hq hr hd
  obtain ⟨t, ht⟩ := exec_next i { s with stim := heldStim s.stim }
  have hbusy : busyStep { s with stim := heldStim s.stim } = .next (advance { s with stim := heldStim s.stim } t) :=
    busyStep_of_decode hd ht
  refine ⟨t, ht, ?_⟩
  rw [step_busy hq hr, ← busyStep_eq (s := { s with stim := heldStim s.stim }) hq, hbusy]

/-! ### O37: the digest port -/

/-- SER serialises the words in order, each least significant byte first (R155). -/
theorem serialBytes_getElem? (h : Chain) {k j : Nat} (hk : k < 4) (hj : j < 4) :
    (serialBytes h)[4 * k + j]? = some ((h.word k).extractLsb' (8 * j) 8) := by
  simp only [serialBytes, List.getElem?_append, List.length_append, bytesLE_length]
  interval_cases k
  · rw [if_pos (by omega), if_pos (by omega), if_pos (by omega), bytesLE_getElem? h.w0 (by omega)]
    simp [Chain.word]
  · rw [if_pos (by omega), if_pos (by omega), if_neg (by omega), bytesLE_getElem? h.w1 (by omega)]
    simp [Chain.word]
  · rw [if_pos (by omega), if_neg (by omega), bytesLE_getElem? h.w2 (by omega)]
    simp [Chain.word]
  · rw [if_neg (by omega), bytesLE_getElem? h.w3 (by omega)]
    simp [Chain.word]

theorem holdsSerialised_serialise (s : State) : HoldsSerialised (serialise s).DIG s.S := by
  intro k j hk hj
  rw [serialise_DIG, Memory.read_writeBytes, if_pos (by rw [serialBytes_length]; omega), Nat.sub_zero,
    serialBytes_getElem? s.S hk hj]

theorem le32_extractLsb' (w : Word) :
    le32 (w.extractLsb' 0 8) (w.extractLsb' 8 8) (w.extractLsb' 16 8) (w.extractLsb' 24 8) = w := by
  rw [le32, BitVec.extractLsb'_append_extractLsb'_eq_extractLsb' (start₂ := 24) (start₁ := 16) rfl,
    BitVec.extractLsb'_append_extractLsb'_eq_extractLsb' (start₂ := 16) (start₁ := 8) rfl,
    BitVec.extractLsb'_append_extractLsb'_eq_extractLsb' (start₂ := 8) (start₁ := 0) rfl, BitVec.extractLsb'_eq_self]

/-- The bytes 4k .. 4k + 3 of DIG are the word `S[k]`. -/
theorem le32_digByte {s : State} {h : Chain} (hd : HoldsSerialised s.DIG h) {k : Nat} (hk : k < 4) :
    le32 (digByte s (4 * k + 0)) (digByte s (4 * k + 1)) (digByte s (4 * k + 2)) (digByte s (4 * k + 3)) =
      h.word k := by
  have hbyte : ∀ j, j < 4 → digByte s (4 * k + j) = (h.word k).extractLsb' (8 * j) 8 :=
    fun j hj => Memory.byteAt_of_read s.fresh (hd k j hk hj)
  rw [hbyte 0 (by omega), hbyte 1 (by omega), hbyte 2 (by omega), hbyte 3 (by omega)]
  exact le32_extractLsb' (h.word k)

theorem digestBits_of_holdsSerialised {s : State} {h : Chain} (hd : HoldsSerialised s.DIG h) :
    digestBits s = h.word 3 ++ h.word 2 ++ h.word 1 ++ h.word 0 := by
  have h0 : le32 (digByte s 0) (digByte s 1) (digByte s 2) (digByte s 3) = h.word 0 :=
    le32_digByte hd (k := 0) (by omega)
  have h1 : le32 (digByte s 4) (digByte s 5) (digByte s 6) (digByte s 7) = h.word 1 :=
    le32_digByte hd (k := 1) (by omega)
  have h2 : le32 (digByte s 8) (digByte s 9) (digByte s 10) (digByte s 11) = h.word 2 :=
    le32_digByte hd (k := 2) (by omega)
  have h3 : le32 (digByte s 12) (digByte s 13) (digByte s 14) (digByte s 15) = h.word 3 :=
    le32_digByte hd (k := 3) (by omega)
  rw [digestBits, h0, h1, h2, h3]

/-- The words of a 128-bit value put together from four. -/
theorem extractLsb'_append_words (h : Chain) {k : Nat} (hk : k < 4) :
    (h.word 3 ++ h.word 2 ++ h.word 1 ++ h.word 0).extractLsb' (32 * k) 32 = h.word k := by
  interval_cases k
  · exact BitVec.extractLsb'_append_eq_right
  · rw [BitVec.extractLsb'_append_eq_of_le (by omega)]
    exact BitVec.extractLsb'_append_eq_right
  · rw [BitVec.extractLsb'_append_eq_of_le (by omega), BitVec.extractLsb'_append_eq_of_le (by omega)]
    exact BitVec.extractLsb'_append_eq_right
  · rw [BitVec.extractLsb'_append_eq_of_le (by omega), BitVec.extractLsb'_append_eq_of_le (by omega),
      BitVec.extractLsb'_append_eq_of_le (by omega)]
    exact BitVec.extractLsb'_eq_self

/-- Settles O37: DIG holds the words of S, and the port puts its bytes together again. -/
theorem digestPortCarriesTheChainingWords : Obligations.DigestPortCarriesTheChainingWords := by
  unfold Obligations.DigestPortCarriesTheChainingWords
  intro s
  refine ⟨serialise s, digestBits (serialise s), rfl, rfl, rfl, fun k hk => ?_⟩
  rw [digestBits_of_holdsSerialised (holdsSerialised_serialise s)]
  exact extractLsb'_append_words s.S hk

/-! ### O43: ERRLOG is sticky -/

/-- ERRLOG of `t` is that of `s` with at most bits added. -/
def LogGrows (s t : State) : Prop := ∃ bits, t.ERRLOG = s.ERRLOG ||| bits

theorem LogGrows.of_eq {s t : State} (h : t.ERRLOG = s.ERRLOG) : LogGrows s t := ⟨0, by simp [h]⟩

theorem LogGrows.keeps_bit {s t : State} (h : LogGrows s t) {n : Fin 3} (hn : s.ERRLOG[n] = true) :
    t.ERRLOG[n] = true := by
  obtain ⟨bits, hbits⟩ := h
  simp_all

@[simp] theorem updBody_ERRLOG (x : Byte) (s : State) : (updBody x s).ERRLOG = s.ERRLOG := by
  unfold updBody
  split <;> simp

@[simp] theorem finBody_ERRLOG (s : State) : (finBody s).ERRLOG = s.ERRLOG := by
  unfold finBody
  split <;> simp [onlyBlock, firstBlock, secondBlock]

theorem logGrows_perform (action : Action) (s : State) : LogGrows s (perform action s) := by
  cases action with
  | discard => exact .of_eq rfl
  | load => exact .of_eq rfl
  | raise cause => exact ⟨cause.logBit, rfl⟩
  | absorb x => exact .of_eq (updBody_ERRLOG x s)
  | finalize => exact .of_eq (finBody_ERRLOG s)

@[simp] theorem startAction_DIG (action : Action) (s : State) : (startAction action s).DIG = s.DIG := by
  cases action <;> rfl

@[simp] theorem startAction_ERRLOG (action : Action) (s : State) : (startAction action s).ERRLOG = s.ERRLOG := by
  cases action <;> rfl

theorem logGrows_microEffect (s : State) : LogGrows s (microEffect s) := by
  cases hq : s.SEQ <;> simp only [microEffect, hq]
  case flt => exact ⟨s.opCause.logBit, rfl⟩
  all_goals exact .of_eq rfl

theorem logGrows_step {s t : State} (h : step s = .next t) (hr : s.stim.head? ≠ some .rst) : LogGrows s t := by
  obtain ⟨rest, hs, -⟩ | ⟨-, -, rfl⟩ | ⟨-, rest, -, rfl⟩ | ⟨-, -, w, rest, -, rfl⟩ | ⟨-, -, w, rest, -, rfl⟩ |
    ⟨-, -, rfl⟩ := step_cases h
  · simp [hs] at hr
  · exact .of_eq rfl
  · exact .of_eq rfl
  · exact logGrows_perform _ { s with stim := rest }
  · exact .of_eq (startAction_ERRLOG _ { s with stim := rest })
  · obtain ⟨bits, hbits⟩ := logGrows_microEffect { s with stim := heldStim s.stim }
    exact ⟨bits, (advance_ERRLOG _ _).trans hbits⟩

theorem logBit_of_code {cause : Cause} {n : Fin 3} (h : n.val + 1 = cause.code) : cause.logBit[n.val] = true := by
  have hlog : cause.logBit = 1#3 <<< n.val := by rw [Cause.logBit, ← h]; rfl
  simp [hlog]

/-- Settles O43: FLT adds its cause's bit, and nothing but reset takes a bit away. -/
theorem errlogIsSticky : Obligations.ErrlogIsSticky := by
  unfold Obligations.ErrlogIsSticky
  refine ⟨fun s t ht n hn => ?_, fun s t ht hr n hn => (logGrows_step ht hr).keeps_bit hn, fun s t ht => ?_⟩
  · obtain rfl : raiseFault s.opCause s = t := by simpa [exec, execFlt] using ht
    simp [logBit_of_code hn]
  · obtain rfl : createAccumulator s = t := by simpa [exec, execInit, initAction, perform] using ht
    rfl

/-! ### O44: the digest while DONE -/

theorem Seq.cases_of_not_absorbing {q : Seq} (h : q.absorbing = false) : q = .idle ∨ q = .ldiv ∨ q = .flt := by
  cases q <;> simp [Seq.absorbing] at h ⊢

/-- A command performed in phase DONE either does nothing or leaves DONE. -/
theorem perform_of_done {w : BitVec 10} {s : State} (hp : s.PHASE = .done)
    (ht : (perform (commandAction w s) s).PHASE = .done) : perform (commandAction w s) s = s := by
  have hphase : ∀ a : Prop, s.PHASE = .absorb → a := fun a h => by simp [hp] at h
  cases ha : commandAction w s with
  | discard => rfl
  | load => simp [ha, perform] at ht
  | raise cause => simp [ha, perform] at ht
  | absorb x => exact hphase _ (phase_of_commandAction (.inl ⟨x, ha⟩))
  | finalize => exact hphase _ (phase_of_commandAction (.inr ha))

/-- Settles O44: in DONE a busy core stands at LDIV or FLT, which leave DONE, as an accepted command does. -/
theorem digestIsImmutableWhileDone : Obligations.DigestIsImmutableWhileDone := by
  unfold Obligations.DigestIsImmutableWhileDone
  intro s t h ht hp hd
  obtain ⟨rest, -, rfl⟩ | ⟨-, -, rfl⟩ | ⟨-, rest, -, rfl⟩ | ⟨-, -, w, rest, -, rfl⟩ | ⟨-, -, w, rest, -, rfl⟩ |
    ⟨hq, -, rfl⟩ := step_cases ht
  · cases hd
  · rfl
  · rfl
  · rw [← commandAction_congr (s := s) (t := { s with stim := rest }) w rfl rfl] at hd ⊢
    rw [perform_of_done (s := { s with stim := rest }) hp hd]
  · exact startAction_DIG _ { s with stim := rest }
  · have hnot : s.SEQ.absorbing = false := by
      by_contra ha
      simp [h.absorbPhase (by simpa using ha)] at hp
    rw [advance_PHASE] at hd
    obtain hs | hs | hs := Seq.cases_of_not_absorbing hnot
    · exact absurd hs hq
    · simp [microEffect, hs] at hd
    · simp [microEffect, hs] at hd

/-! ### O46: the named writers -/

theorem SameSequencer.of_control {s t : State} (hc : control t = control s) (hs : t.stim = s.stim) :
    SameSequencer s t :=
  ⟨congrArg Control.SEQ hc, congrArg Control.opData hc, congrArg Control.opLo hc, congrArg Control.opHi hc,
    congrArg Control.opCause hc, congrArg Control.caller hc, congrArg Control.level hc, hs⟩

@[simp] theorem updBody_ROM (x : Byte) (s : State) : (updBody x s).ROM = s.ROM := by
  unfold updBody
  split <;> simp

@[simp] theorem updBody_stim (x : Byte) (s : State) : (updBody x s).stim = s.stim := by
  unfold updBody
  split <;> simp

@[simp] theorem finBody_ROM (s : State) : (finBody s).ROM = s.ROM := by
  unfold finBody
  split <;> simp [onlyBlock, firstBlock, secondBlock]

@[simp] theorem finBody_stim (s : State) : (finBody s).stim = s.stim := by
  unfold finBody
  split <;> simp [onlyBlock, firstBlock, secondBlock]

@[simp] theorem finBody_CNT (s : State) : (finBody s).CNT = s.CNT := by
  unfold finBody
  split <;> simp [onlyBlock, firstBlock, secondBlock]

@[simp] theorem perform_ROM (action : Action) (s : State) : (perform action s).ROM = s.ROM := by
  cases action <;> simp [perform]

@[simp] theorem perform_stim (action : Action) (s : State) : (perform action s).stim = s.stim := by
  cases action <;> simp [perform]

theorem sameSequencer_perform (action : Action) (s : State) : SameSequencer s (perform action s) :=
  .of_control (control_perform action s) (perform_stim action s)

/-- FIN counts no byte. -/
theorem perform_finAction_CNT (s : State) : (perform (finAction s) s).CNT = s.CNT := by
  unfold finAction
  split <;> simp [perform]

/-- Settles O46: each instruction against the registers it does not write; UPD may write every one but ROM. -/
theorem onlyTheNamedWritersWrite : Obligations.OnlyTheNamedWritersWrite := by
  unfold Obligations.OnlyTheNamedWritersWrite
  intro i s t ht
  cases i with
  | upd x =>
    cases ht
    simp [sameSequencer_perform]
  | fin =>
    cases ht
    simp [sameSequencer_perform, perform_finAction_CNT]
  | init =>
    cases ht
    simp [initAction, perform, SameWork, SameSequencer]
  | stepF | stepG | stepH | stepI =>
    cases ht
    simp [Instr.format, SameSequencer]
  | cbeg | cend =>
    cases ht
    simp [SameSequencer]
  | ldiv | absb | pad80 | padz | padl | ser | flt =>
    cases ht
    simp [SameWork, SameSequencer]

end Sys2Proof.Machine
end

section
/-! PROOFS. The message word and the byte memory of 20_memory: byte order (R52) and the latest write (R12, R67). -/

namespace Sys2Proof.Machine

/-! ### O31: byte order of the message word -/

/-- Concatenation puts its left part above the 2^w values of its right part. -/
theorem toNat_append_add {v w : Nat} (x : BitVec v) (y : BitVec w) : (x ++ y).toNat = 2 ^ w * x.toNat + y.toNat := by
  rw [BitVec.toNat_append, Nat.shiftLeft_eq, Nat.mul_comm, Nat.two_pow_add_eq_or_of_lt y.isLt]

/-- `le32` weighs its bytes little-endian (R12). -/
theorem le32_toNat (b0 b1 b2 b3 : Byte) :
    (le32 b0 b1 b2 b3).toNat = b0.toNat + 2 ^ 8 * b1.toNat + 2 ^ 16 * b2.toNat + 2 ^ 24 * b3.toNat := by
  have h : (le32 b0 b1 b2 b3).toNat = 2 ^ 8 * (2 ^ 8 * (2 ^ 8 * b3.toNat + b2.toNat) + b1.toNat) + b0.toNat := by
    simp only [le32, toNat_append_add]
  omega

theorem bufByte_of_read {s : State} {addr : Nat} {v : Byte} (h : s.BUF.read addr = some v) : bufByte s addr = v :=
  Memory.byteAt_of_read s.fresh h

/-- Settles O31: the four listed bytes are the operands of `le32`. -/
theorem messageWordIsLittleEndian : Obligations.MessageWordIsLittleEndian := by
  unfold Obligations.MessageWordIsLittleEndian
  intro s g b0 b1 b2 b3 h0 h1 h2 h3
  rw [messageWord, bufByte_of_read h0, bufByte_of_read h1, bufByte_of_read h2, bufByte_of_read h3, le32_toNat]

/-! ### O38: a read returns the latest write -/

theorem sameBytesOutside_write (m : Memory) (addr : Nat) (v : Byte) :
    SameBytesOutside addr addr m (m.write addr v) :=
  fun _ hout => Memory.read_write_other m v fun heq => hout ⟨heq.ge, heq.le⟩

/-- Settles O38: a read after the write, its frame, the canonical form and the bound. -/
theorem readReturnsTheLatestWrite : Obligations.ReadReturnsTheLatestWrite := by
  unfold Obligations.ReadReturnsTheLatestWrite
  intro m addr bound v
  exact ⟨Memory.read_write_same m addr v, sameBytesOutside_write m addr v, Memory.wf_write addr v,
    Memory.within_write v⟩

end Sys2Proof.Machine
end

section
/-! PROOFS. The encodings of 30_encoding: decoder and encoder are inverse (R80 to R87), the command map (R81) and the ROM
row (R84, R85). -/

namespace Sys2Proof.Machine

/-! ### The fields of a command word and of a ROM row -/

/-- A command word is its two opcode bits above its byte (R80). -/
theorem commandWord_fields (w : BitVec 10) : w.extractLsb' 8 2 ++ w.extractLsb' 0 8 = w :=
  BitVec.extractLsb'_append_extractLsb' (w := 2) (len := 8)

/-- The mask 0x300 keeps the two opcode bits. -/
theorem commandWord_and_mask (w : BitVec 10) : w &&& 0x300#10 = w.extractLsb' 8 2 ++ 0#8 := by
  calc w &&& 0x300#10
      = (w.extractLsb' 8 2 ++ w.extractLsb' 0 8) &&& (BitVec.allOnes 2 ++ 0#8) := by rw [commandWord_fields]; rfl
    _ = w.extractLsb' 8 2 ++ 0#8 := by rw [BitVec.and_append, BitVec.and_allOnes, BitVec.and_zero]

/-- The test of R81 for UPD reads the opcode bits alone. -/
theorem updMask_iff (w : BitVec 10) : w &&& 0x300#10 = 0x100#10 ↔ w.extractLsb' 8 2 = 0b01#2 := by
  rw [commandWord_and_mask]
  constructor
  · intro h
    have hbits := congrArg (BitVec.extractLsb' 8 2) h
    rwa [BitVec.extractLsb'_append_eq_left] at hbits
  · intro h
    rw [h]
    rfl

/-- A row is `{fsel, g, s, K}` from the top bit down (R84). -/
theorem row_fields (r : BitVec 43) : rowFsel r ++ rowG r ++ rowRot r ++ rowK r = r := by
  unfold rowFsel rowG rowRot rowK
  rw [BitVec.extractLsb'_append_extractLsb'_eq_extractLsb' (by rfl),
    BitVec.extractLsb'_append_extractLsb'_eq_extractLsb' (by rfl),
    BitVec.extractLsb'_append_extractLsb'_eq_extractLsb' (by rfl)]
  exact BitVec.extractLsb'_eq_self

section
variable (f : BitVec 2) (g : BitVec 4) (rot : BitVec 5) (k : BitVec 32)

/-- R84's bit positions weigh the fields of a row. -/
theorem row_toNat :
    (f ++ g ++ rot ++ k).toNat = f.toNat * 2 ^ 41 + g.toNat * 2 ^ 37 + rot.toNat * 2 ^ 32 + k.toNat := by
  simp only [toNat_append_add]
  omega

theorem row_eq_ofNat :
    f ++ g ++ rot ++ k =
      BitVec.ofNat 43 (f.toNat * 2 ^ 41 + g.toNat * 2 ^ 37 + rot.toNat * 2 ^ 32 + k.toNat) := by
  rw [← row_toNat, BitVec.ofNat_toNat, BitVec.setWidth_eq]

@[simp] theorem rowFsel_append : rowFsel (f ++ g ++ rot ++ k) = f := by
  apply BitVec.eq_of_toNat_eq
  rw [rowFsel, BitVec.extractLsb'_toNat, row_toNat, Nat.shiftRight_eq_div_pow]
  omega

@[simp] theorem rowG_append : rowG (f ++ g ++ rot ++ k) = g := by
  apply BitVec.eq_of_toNat_eq
  rw [rowG, BitVec.extractLsb'_toNat, row_toNat, Nat.shiftRight_eq_div_pow]
  omega

@[simp] theorem rowRot_append : rowRot (f ++ g ++ rot ++ k) = rot := by
  rw [rowRot, BitVec.extractLsb'_append_eq_of_le (w := 32) (by decide)]
  exact BitVec.extractLsb'_append_eq_right

@[simp] theorem rowK_append : rowK (f ++ g ++ rot ++ k) = k :=
  BitVec.extractLsb'_append_eq_right

end

/-! ### O1: decoding and encoding are inverse -/

/-- The fields of an encoded instruction are read back as they were written. -/
theorem decode_encode (i : Instr) : decode (encode i) = .instr i := by
  cases i with
  | upd x =>
    have hmask : (0b01#2 ++ x) &&& 0x300#10 = 0x100#10 :=
      (updMask_iff _).2 BitVec.extractLsb'_append_eq_left
    simp only [encode, decode, decodeCmd, if_pos hmask, BitVec.extractLsb'_append_eq_right]
  | stepF | stepG | stepH | stepI => simp [encode, decode, decodeRow]
  | init | fin | ldiv | absb | cbeg | cend | pad80 | padz | padl | ser | flt => rfl

theorem encode_of_decodeCmd {w : BitVec 10} {i : Instr} (h : decodeCmd w = .instr i) : encode i = .cmd w := by
  unfold decodeCmd at h
  split_ifs at h with hupd hinit hfin <;> cases h
  · rw [encode, ← (updMask_iff w).1 hupd, commandWord_fields]
  · rw [encode, hinit]
  · rw [encode, hfin]

theorem row_of_fsel {r : BitVec 43} {f : BitVec 2} (h : rowFsel r = f) :
    Code.row (f ++ rowG r ++ rowRot r ++ rowK r) = .row r := by
  rw [← h, row_fields]

theorem encode_of_decodeRow {r : BitVec 43} {i : Instr} (h : decodeRow r = .instr i) : encode i = .row r := by
  unfold decodeRow at h
  split_ifs at h with h0 h1 h2 <;> cases h
  · exact row_of_fsel h0
  · exact row_of_fsel h1
  · exact row_of_fsel h2
  · have h3 : rowFsel r = 3 := by bv_omega
    exact row_of_fsel h3

theorem encode_of_decodeSeq {c : BitVec 4} {i : Instr} (h : decodeSeq c = .instr i) : encode i = .seq c := by
  have hall : ∀ c : BitVec 4, ∀ i ∈ (decodeSeq c).toOption, encode i = .seq c := by decide
  exact hall c i (by rw [h]; rfl)

/-- A word that decodes is the word that its instruction is encoded by. -/
theorem encode_of_decode {code : Code} {i : Instr} (h : decode code = .instr i) : encode i = code := by
  cases code with
  | cmd w => exact encode_of_decodeCmd h
  | row r => exact encode_of_decodeRow h
  | seq c => exact encode_of_decodeSeq h

/-- Settles O1: the decoder inverts the encoder on every instruction, and the encoder the decoder on every word of each
format that decodes. -/
theorem decodeInvertsEncode : Obligations.DecodeInvertsEncode := by
  unfold Obligations.DecodeInvertsEncode
  intro code i
  constructor
  · exact encode_of_decode
  · rintro rfl
    exact decode_encode i

/-! ### O2: the command map -/

/-- The UPD words are the range 0x100 .. 0x1FF. -/
theorem updMask_iff_range (w : BitVec 10) : w &&& 0x300#10 = 0x100#10 ↔ 0x100 ≤ w.toNat ∧ w.toNat ≤ 0x1FF := by
  rw [updMask_iff, ← BitVec.toNat_inj, BitVec.extractLsb'_toNat, Nat.shiftRight_eq_div_pow]
  have := w.isLt
  simp only [BitVec.toNat_ofNat]
  omega

/-- The byte of an UPD word is its distance from 0x100. -/
theorem updByte_eq_ofNat {w : BitVec 10} (h : 0x100 ≤ w.toNat) :
    w.extractLsb' 0 8 = BitVec.ofNat 8 (w.toNat - 0x100) := by
  apply BitVec.eq_of_toNat_eq
  rw [BitVec.extractLsb'_toNat, BitVec.toNat_ofNat, Nat.shiftRight_zero]
  omega

theorem decodeCmd_eq_table (w : BitVec 10) :
    decodeCmd w =
      if w.toNat = 0x000 then .instr .init
      else if 0x100 ≤ w.toNat ∧ w.toNat ≤ 0x1FF then .instr (.upd (BitVec.ofNat 8 (w.toNat - 0x100)))
      else if w.toNat = 0x200 then .instr .fin
      else .rejected (.reservedCommand w) := by
  have hinit : w = 0x000#10 ↔ w.toNat = 0x000 := by rw [← BitVec.toNat_inj]; rfl
  have hfin : w = 0x200#10 ↔ w.toNat = 0x200 := by rw [← BitVec.toNat_inj]; rfl
  simp only [decodeCmd, updMask_iff_range, hinit, hfin]
  by_cases hupd : 0x100 ≤ w.toNat ∧ w.toNat ≤ 0x1FF
  · rw [if_pos hupd, if_neg (by omega), if_pos hupd, updByte_eq_ofNat hupd.1]
  · rw [if_neg hupd, if_neg hupd]

/-- The words with no instruction are the two ranges around UPD and FIN (R83). -/
theorem reservedCommand_iff {n : Nat} (hn : n < 1024) :
    (decode (.cmd (BitVec.ofNat 10 n))).toOption.isNone ↔ (1 ≤ n ∧ n < 0x100) ∨ (0x201 ≤ n ∧ n < 1024) := by
  rw [decode, decodeCmd_eq_table, BitVec.toNat_ofNat, Nat.mod_eq_of_lt hn]
  split_ifs <;> simp [Decoded.toOption] <;> omega

theorem length_filter_range (p : Nat → Bool) (n : Nat) :
    ((List.range n).filter p).length = ((Finset.range n).filter fun m => p m).card := by
  simp [Finset.card, Finset.filter, Finset.range, Multiset.range]

/-- The reserved words number 255 + 511 (R83). -/
theorem length_reservedCommands :
    ((List.range 1024).filter fun n => (decode (.cmd (BitVec.ofNat 10 n))).toOption.isNone).length = 766 := by
  have hset : (Finset.range 1024).filter (fun n => (decode (.cmd (BitVec.ofNat 10 n))).toOption.isNone) =
      Finset.Ico 1 0x100 ∪ Finset.Ico 0x201 1024 := by
    ext n
    simp only [Finset.mem_filter, Finset.mem_range, Finset.mem_union, Finset.mem_Ico]
    constructor
    · rintro ⟨hn, h⟩
      exact (reservedCommand_iff hn).1 h
    · intro h
      have hn : n < 1024 := by omega
      exact ⟨hn, (reservedCommand_iff hn).2 h⟩
  have hdisjoint : Disjoint (Finset.Ico 1 0x100) (Finset.Ico 0x201 1024) :=
    Finset.disjoint_left.2 fun n h h' => by simp only [Finset.mem_Ico] at h h'; omega
  rw [length_filter_range, hset, Finset.card_union_of_disjoint hdisjoint, Nat.card_Ico, Nat.card_Ico]

/-- Settles O2: the table for the word `n` and the count of its reserved words. -/
theorem commandMapIsTheTable : Obligations.CommandMapIsTheTable := by
  unfold Obligations.CommandMapIsTheTable
  refine ⟨fun n hn => ?_, length_reservedCommands⟩
  rw [decode, decodeCmd_eq_table, BitVec.toNat_ofNat, Nat.mod_eq_of_lt hn]

/-! ### O3: a row decodes by fsel alone -/

/-- No row of the ROM rotates by 0 (R131). -/
theorem rowRot_romTable_ne_zero : ∀ n (h : n < 64), rowRot romTable[n] ≠ 0 := by
  decide

/-- Settles O3: each numbered row is the encoding of its step, and the decoder inverts the encoder. -/
theorem rowsDecodeByFselAlone : Obligations.RowsDecodeByFselAlone := by
  unfold Obligations.RowsDecodeByFselAlone
  refine ⟨fun g rot k => ?_, rowRot_romTable_ne_zero⟩
  have hrow (f : BitVec 2) := row_eq_ofNat f g rot k
  exact ⟨hrow 0 ▸ decode_encode (.stepF g rot k), hrow 1 ▸ decode_encode (.stepG g rot k),
    hrow 2 ▸ decode_encode (.stepH g rot k), hrow 3 ▸ decode_encode (.stepI g rot k)⟩

/-! ### O4: words written out -/

theorem decodeTableWord_of_encode {nbits w : Nat} {i : Instr} (h : codeOfTableWord nbits w = some (encode i)) :
    decodeTableWord nbits w = some i := by
  rw [decodeTableWord, h]
  simp only [decode_encode, Decoded.toOption]

/-- Settles O4: each written word is the encoding of its instruction; the two words with none are evaluated. -/
theorem writtenWordsDecode : Obligations.WrittenWordsDecode := by
  unfold Obligations.WrittenWordsDecode
  refine ⟨?_, ?_, ?_, by decide, ?_, ?_, ?_, ?_, ?_, ?_, by decide⟩ <;> exact decodeTableWord_of_encode (by decide)

end Sys2Proof.Machine
end

section
/-! PROOFS. Compress as a function of the ROM, the chaining state and the 64 bytes of BUF (41_compressor R120); with the
rows of R130 it is the function form of the specification. -/

namespace Sys2Proof.Machine

/-! ### The steps on (a, b, c, d) -/

/-- The working registers (a, b, c, d) as four words. -/
def workChain (s : State) : Chain := { w0 := s.a, w1 := s.b, w2 := s.c, w3 := s.d }

/-- The 64 bytes of BUF as reads give them. -/
def blockBytes (s : State) : List Byte := (List.range 64).map (bufByte s)

/-- A step of R124 with a ROM row, on (a, b, c, d). -/
def rowStep (block : List Byte) (v : Chain) (row : BitVec 43) : Chain where
  w0 := v.w3
  w1 := v.w1 + rotl32 (v.w0 + roundFn (rowFsel row) v.w1 v.w2 v.w3 + blockWord block (rowG row).toNat + rowK row)
    (rowRot row)
  w2 := v.w1
  w3 := v.w2

/-- (a, b, c, d) after the first `n` rows of a ROM. -/
def rowSteps (rom : Vector (BitVec 43) 64) (block : List Byte) (h : Chain) (n : Nat) : Chain :=
  (List.range n).foldl (fun v k => rowStep block v (rom[k]?.getD 0)) h

/-- The sum of two chains, word by word (R129). -/
def Chain.add (h v : Chain) : Chain where
  w0 := h.w0 + v.w0
  w1 := h.w1 + v.w1
  w2 := h.w2 + v.w2
  w3 := h.w3 + v.w3

/-- Compress with the rows of any ROM. -/
def compressRows (rom : Vector (BitVec 43) 64) (h : Chain) (block : List Byte) : Chain :=
  h.add (rowSteps rom block h 64)

theorem rowSteps_succ (rom : Vector (BitVec 43) 64) (block : List Byte) (h : Chain) (n : Nat) :
    rowSteps rom block h (n + 1) = rowStep block (rowSteps rom block h n) (rom[n]?.getD 0) := by
  simp only [rowSteps, List.range_succ, List.foldl_append, List.foldl_cons, List.foldl_nil]

theorem blockBytes_congr {s t : State} (hbuf : t.BUF = s.BUF) (hfresh : t.fresh = s.fresh) :
    blockBytes t = blockBytes s := by
  unfold blockBytes bufByte
  rw [hbuf, hfresh]

theorem blockBytes_getD (s : State) {j : Nat} (hj : j < 64) : (blockBytes s).getD j 0 = bufByte s j := by
  simp [blockBytes, hj]

/-- M[g] is a word of the block (R52, R120). -/
theorem messageWord_eq_blockWord (s : State) (g : BitVec 4) : messageWord s g = blockWord (blockBytes s) g.toNat := by
  have hg := g.isLt
  rw [messageWord, blockWord, blockBytes_getD s (by omega), blockBytes_getD s (by omega), blockBytes_getD s (by omega),
    blockBytes_getD s (by omega)]

theorem workChain_romStep (s : State) :
    workChain (romStep s) = rowStep (blockBytes s) (workChain s) (romRow s) := by
  simp [workChain, romStep, rowStep, stepSum, messageWord_eq_blockWord]

/-! ### Compress -/

/-- Up to the step with i = 63 the step counter counts, and no register becomes undef. -/
theorem romSteps_counter (s : State) {n : Nat} (hn : n ≤ 63) :
    (romSteps n (beginCompress s)).i.toNat = n ∧ (romSteps n (beginCompress s)).fresh = s.fresh := by
  induction n with
  | zero => simp
  | succ n ih =>
    obtain ⟨hi, hf⟩ := ih (by omega)
    rw [romSteps_succ']
    generalize romSteps n (beginCompress s) = m at hi hf ⊢
    obtain ⟨hi', hf'⟩ := romStep_of_lt (s := m) (by bv_omega)
    rw [hi', hf']
    exact ⟨by bv_omega, hf⟩

theorem workChain_romSteps (s : State) {n : Nat} (hn : n ≤ 64) :
    workChain (romSteps n (beginCompress s)) = rowSteps s.ROM (blockBytes s) s.S n := by
  induction n with
  | zero => rw [romSteps_zero]; rfl
  | succ n ih =>
    obtain ⟨hi, hf⟩ := romSteps_counter s (n := n) (by omega)
    have hblock : blockBytes (romSteps n (beginCompress s)) = blockBytes s := blockBytes_congr (by simp) hf
    have hrow : romRow (romSteps n (beginCompress s)) = s.ROM[n]?.getD 0 := by
      simp [romRow, hi, show n < 64 by omega]
    rw [romSteps_succ', workChain_romStep, hblock, hrow, ih (by omega), rowSteps_succ]

/-- The sequence CBEG, 64 steps, CEND computes a function of the ROM, S and the block (R120). -/
theorem compress_S (s : State) : (compress s).S = compressRows s.ROM s.S (blockBytes s) := by
  have hwork := workChain_romSteps s (n := 64) le_rfl
  have hS : (romSteps 64 (beginCompress s)).S = s.S := by simp
  rw [compress, endCompress_S, compressRows, ← hwork]
  generalize romSteps 64 (beginCompress s) = m at hS ⊢
  rw [← hS]
  rfl

/-! ### The rows of R130 -/

/-- Each row of the ROM holds the round, gidx(i), s[i] and K[i] (R130 to R132). -/
theorem romTable_fields : ∀ n (h : n < 64), (rowFsel romTable[n]).toNat = n / 16 ∧
    (rowG romTable[n]).toNat = refIndex n ∧ (rowRot romTable[n]).toNat = refRot n ∧ rowK romTable[n] = refK n := by
  decide

theorem rotl32_eq_rotateLeft (x : Word) {n : BitVec 5} (h : n ≠ 0) : rotl32 x n = x.rotateLeft n.toNat := by
  rw [rotl32, if_neg h, BitVec.rotateLeft, BitVec.rotateLeftAux, Nat.mod_eq_of_lt n.isLt]

theorem roundFn_eq_refFn (f : BitVec 2) (x y z : Word) : roundFn f x y z = refFn f.toNat x y z := by
  have hf (n : BitVec 2) : f = n ↔ f.toNat = n.toNat := BitVec.toNat_inj.symm
  simp only [roundFn, refFn, hf]
  rfl

/-- A step with row `n` of the ROM is the loop body of R120 at `n`. -/
theorem rowStep_romTable (block : List Byte) (v : Chain) {n : Nat} (hn : n < 64) :
    rowStep block v (romTable[n]?.getD 0) = refStep block v n := by
  obtain ⟨hf, hg, hr, hk⟩ := romTable_fields n hn
  rw [Vector.getElem?_eq_getElem hn, Option.getD_some, rowStep, rotl32_eq_rotateLeft _ (rowRot_romTable_ne_zero n hn),
    roundFn_eq_refFn, hf, hg, hr, hk, refStep]

/-- Compress with the fixed ROM is the function form of R120. -/
theorem compressRows_romTable (h : Chain) (block : List Byte) : compressRows romTable h block = compressFn h block := by
  have hloop : rowSteps romTable block h 64 = refLoop block h :=
    List.foldl_ext _ _ _ fun v n hn => rowStep_romTable block v (List.mem_range.1 hn)
  rw [compressRows, hloop]
  rfl

end Sys2Proof.Machine
end

section
/-! PROOFS. The host commands and the micro-ops LDIV and ABSB (40_host_commands R101 to R108): what they store, the
block that UPD compresses, and what they leave unchanged. -/

namespace Sys2Proof.Machine

/-! ### O15, O24: INIT and LDIV -/

/-- Settles O15: INIT loads the initial values and drops BUF in every phase. -/
theorem initCreatesAnAccumulatorInEveryPhase : Obligations.InitCreatesAnAccumulatorInEveryPhase := by
  unfold Obligations.InitCreatesAnAccumulatorInEveryPhase
  intro s
  exact ⟨createAccumulator s, rfl, rfl, rfl, rfl, rfl, rfl, Memory.read_nil, rfl, rfl, rfl, rfl, Memory.read_nil,
    ⟨rfl, rfl, rfl, rfl, rfl⟩, rfl, sameSequencer_perform .load s⟩

/-- Settles O24: LDIV, field by field. -/
theorem ldivLoadsTheInitialValues : Obligations.LdivLoadsTheInitialValues := by
  unfold Obligations.LdivLoadsTheInitialValues
  refine ⟨by decide, fun s => ?_⟩
  exact ⟨loadInitial s, rfl, rfl, rfl, rfl, rfl, rfl, rfl, Memory.read_nil, rfl, rfl, fun _ => rfl,
    ⟨rfl, rfl, rfl, rfl, rfl⟩, rfl, rfl, .of_control rfl rfl⟩

/-! ### O16, O25: one byte -/

/-- The store of ABSB(x) and all that it leaves unchanged (R107). -/
structure StoresByte (x : Byte) (s t : State) : Prop where
  stored : t.BUF.read s.LEN.toNat = some x
  buf : SameBytesOutside s.LEN.toNat s.LEN.toNat s.BUF t.BUF
  chain : t.S = s.S
  work : SameWork s t
  dig : SameBytes s.DIG t.DIG
  status : SameStatus s t
  rom : t.ROM = s.ROM
  sequencer : SameSequencer s t

theorem storesByte_absorbByte (x : Byte) (s : State) : StoresByte x s (absorbByte x s) where
  stored := Memory.read_write_same _ _ _
  buf := sameBytesOutside_write _ _ _
  chain := rfl
  work := ⟨rfl, rfl, rfl, rfl, rfl⟩
  dig := fun _ => rfl
  status := ⟨rfl, rfl, rfl⟩
  rom := rfl
  sequencer := .of_control rfl rfl

/-- UPD in phase ABSORB below MAX_BYTES passes its OVERFLOW test (R102). -/
theorem updAction_of_absorb {s : State} (x : Byte) (hp : s.PHASE = .absorb) (hc : s.CNT.toNat < 2 ^ 61 - 1) :
    updAction x s = .absorb x := by
  have hne : s.CNT ≠ maxBytes := fun h => by
    rw [h] at hc
    exact absurd hc (by decide)
  simp only [updAction, hp, if_neg hne]

theorem exec_upd_of_absorb {s : State} (x : Byte) (hp : s.PHASE = .absorb) (hc : s.CNT.toNat < 2 ^ 61 - 1) :
    exec (.upd x) s = .next (updBody x s) := by
  simp only [exec, execUpd, updAction_of_absorb x hp hc, perform]

theorem finAction_of_absorb {s : State} (hp : s.PHASE = .absorb) : finAction s = .finalize := by
  simp only [finAction, hp]

theorem exec_fin_of_absorb {s : State} (hp : s.PHASE = .absorb) : exec .fin s = .next (finBody s) := by
  simp only [exec, execFin, finAction_of_absorb hp, perform]

@[simp] theorem updBody_CNT (x : Byte) (s : State) : (updBody x s).CNT = s.CNT + 1 := by
  unfold updBody
  split <;> simp

@[simp] theorem updBody_LEN (x : Byte) (s : State) : (updBody x s).LEN = s.LEN + 1 := by
  unfold updBody
  split <;> simp

@[simp] theorem updBody_BUF (x : Byte) (s : State) : (updBody x s).BUF = s.BUF.write s.LEN.toNat x := by
  unfold updBody
  split <;> simp

@[simp] theorem updBody_DIG (x : Byte) (s : State) : (updBody x s).DIG = s.DIG := by
  unfold updBody
  split <;> simp

@[simp] theorem updBody_PHASE (x : Byte) (s : State) : (updBody x s).PHASE = s.PHASE := by
  unfold updBody
  split <;> simp

@[simp] theorem updBody_ERR (x : Byte) (s : State) : (updBody x s).ERR = s.ERR := by
  unfold updBody
  split <;> simp

theorem updBody_of_len_ne {s : State} (x : Byte) (h : s.LEN ≠ 63#6) : updBody x s = absorbByte x s := by
  rw [updBody, if_neg h]

theorem updBody_of_len_eq {s : State} (x : Byte) (h : s.LEN = 63#6) : updBody x s = compress (absorbByte x s) := by
  rw [updBody, if_pos h]

/-- Below MAX_BYTES the byte counter does not wrap (R28, R172). -/
theorem toNat_cnt_add_one {s : State} (h : s.CNT.toNat < 2 ^ 61 - 1) : (s.CNT + 1).toNat = s.CNT.toNat + 1 := by
  bv_omega

theorem toNat_len_add_one (s : State) : (s.LEN + 1).toNat = (s.LEN.toNat + 1) % 64 := by
  bv_omega

/-- Settles O16: UPD is ABSB alone while the buffer is not full. -/
theorem updStoresOneByte : Obligations.UpdStoresOneByte := by
  unfold Obligations.UpdStoresOneByte
  intro x s hp hc hlen
  obtain ⟨stored, buf, chain, work, dig, status, rom, sequencer⟩ := storesByte_absorbByte x s
  have hl : (s.LEN + 1).toNat = s.LEN.toNat + 1 := by bv_omega
  refine ⟨absorbByte x s, ?_, stored, buf, toNat_cnt_add_one hc, hl, chain, work, dig, status, rom, sequencer⟩
  rw [exec_upd_of_absorb x hp hc, updBody_of_len_ne x hlen]

/-- Settles O25: ABSB at any LEN and CNT, both of which wrap. -/
theorem absbStoresCountsAndAdvances : Obligations.AbsbStoresCountsAndAdvances := by
  unfold Obligations.AbsbStoresCountsAndAdvances
  refine ⟨by decide, fun s => ?_⟩
  obtain ⟨stored, buf, chain, work, dig, status, rom, sequencer⟩ := storesByte_absorbByte s.opData s
  exact ⟨absorbByte s.opData s, rfl, stored, buf, BitVec.toNat_add s.CNT 1, toNat_len_add_one s, chain, work, dig,
    status, rom, sequencer⟩

/-! ### The block as a list of bytes -/

/-- The bytes BUF[0 .. LEN-1] (R29, R60). -/
def pendingBytes (s : State) : List Byte := (List.range s.LEN.toNat).map (bufByte s)

@[simp] theorem pendingBytes_length (s : State) : (pendingBytes s).length = s.LEN.toNat := by simp [pendingBytes]

/-- The bytes of BUF from address 0 on read as `bytes`. -/
def BufStartsWith (s : State) (bytes : List Byte) : Prop := (List.range bytes.length).map (bufByte s) = bytes

theorem bufStartsWith_nil (s : State) : BufStartsWith s [] := rfl

theorem bufStartsWith_pendingBytes (s : State) : BufStartsWith s (pendingBytes s) := by
  rw [BufStartsWith, pendingBytes_length, pendingBytes]

theorem BufStartsWith.blockBytes_eq {s : State} {bytes : List Byte} (h : BufStartsWith s bytes)
    (hlen : bytes.length = 64) : blockBytes s = bytes := by
  rwa [BufStartsWith, hlen] at h

theorem BufStartsWith.pendingBytes_eq {s : State} {bytes : List Byte} (h : BufStartsWith s bytes)
    (hlen : s.LEN.toNat = bytes.length) : pendingBytes s = bytes := by
  rwa [BufStartsWith, ← hlen] at h

/-- A store right behind the known bytes makes the list longer. -/
theorem BufStartsWith.append {s t : State} {bytes more : List Byte} (h : BufStartsWith s bytes)
    (hbuf : t.BUF = s.BUF.writeBytes bytes.length more) (hfresh : t.fresh = s.fresh) :
    BufStartsWith t (bytes ++ more) := by
  have hbyte : ∀ j, bufByte t j = if bytes.length ≤ j ∧ j < bytes.length + more.length then
      (more[j - bytes.length]?).getD (Config.freeByte j s.fresh) else bufByte s j := fun j => by
    rw [bufByte, Memory.byteAt, hbuf, hfresh, Memory.read_writeBytes, apply_ite (Option.getD ·)]
    split <;> rfl
  have hold : (List.range bytes.length).map (bufByte t) = bytes := by
    refine Eq.trans (List.map_congr_left fun j hj => ?_) h
    rw [hbyte, if_neg (by have := List.mem_range.1 hj; omega)]
  have hnew : (List.range more.length).map (fun j => bufByte t (bytes.length + j)) = more := by
    refine List.ext_getElem (by simp) fun j hj hj' => ?_
    simp [hbyte, hj']
  rw [BufStartsWith, List.length_append, List.range_add, List.map_append, hold, List.map_map]
  exact congrArg (bytes ++ ·) hnew

/-- ABSB stores right behind the pending bytes. -/
theorem bufStartsWith_absorbByte (x : Byte) (s : State) : BufStartsWith (absorbByte x s) (pendingBytes s ++ [x]) :=
  (bufStartsWith_pendingBytes s).append (by simp) rfl

/-- The block that an UPD fills: the pending bytes and the new one. -/
theorem blockBytes_absorbByte {s : State} (x : Byte) (h : s.LEN = 63#6) :
    blockBytes (absorbByte x s) = pendingBytes s ++ [x] :=
  (bufStartsWith_absorbByte x s).blockBytes_eq (by simp [h])

theorem updBody_S_of_len_eq {s : State} (x : Byte) (h : s.LEN = 63#6) :
    (updBody x s).S = compressRows s.ROM s.S (pendingBytes s ++ [x]) := by
  rw [updBody_of_len_eq x h, compress_S, absorbByte_ROM, absorbByte_S, blockBytes_absorbByte x h]

/-- Settles O17: the block compressed is the 63 pending bytes and x, by the function form of R120. -/
theorem updCompressesTheFilledBlock : Obligations.UpdCompressesTheFilledBlock := by
  unfold Obligations.UpdCompressesTheFilledBlock
  intro x s hp hc hlen hrom
  have hl : s.LEN.toNat = 63 := by rw [hlen]; rfl
  have hS : (updBody x s).S = compressFn s.S ((List.range 63).map (bufByte s) ++ [x]) := by
    rw [updBody_S_of_len_eq x hlen, hrom, compressRows_romTable, pendingBytes, hl]
  have hbuf := sameBytesOutside_write s.BUF 63 x
  refine ⟨updBody x s, exec_upd_of_absorb x hp hc, hS, by simp [hlen], by simpa using toNat_cnt_add_one hc,
    by simp [hl], by simpa [hl] using hbuf, fun _ => by rw [updBody_DIG], by simp [SameStatus], updBody_ROM x s,
    sameSequencer_perform (.absorb x) s⟩

end Sys2Proof.Machine
end

section
/-! PROOFS. FIN (40_host_commands R103, 42_padder_finalizer R150, R154): the final blocks as lists of bytes, what stands
in BUF and DIG afterwards, and what FIN leaves unchanged. -/

namespace Sys2Proof.Machine

/-! ### The final blocks -/

/-- One final block: the pending bytes, 0x80, zeros, the length field (R150, R154). -/
def onlyPadding (pending : List Byte) (count : BitVec 64) : List Byte :=
  pending ++ [0x80] ++ List.replicate (55 - pending.length) 0 ++ bytesLE 8 (count * 8)

/-- The first of two final blocks. -/
def firstPadding (pending : List Byte) : List Byte :=
  pending ++ [0x80] ++ List.replicate (63 - pending.length) 0

/-- The second of two final blocks. -/
def secondPadding (count : BitVec 64) : List Byte := List.replicate 56 0 ++ bytesLE 8 (count * 8)

theorem bufStartsWith_pad80 (s : State) : BufStartsWith (pad80 s) (pendingBytes s ++ [0x80]) :=
  (bufStartsWith_pendingBytes s).append (by simp) rfl

/-- PADZ right behind the known bytes (R152). -/
theorem BufStartsWith.padZeros {s : State} {bytes : List Byte} (h : BufStartsWith s bytes) (hi : Nat) :
    BufStartsWith (padZeros bytes.length hi s) (bytes ++ List.replicate (hi + 1 - bytes.length) 0) :=
  h.append rfl rfl

/-- PADL behind 56 known bytes (R153). -/
theorem BufStartsWith.padLength {s : State} {bytes : List Byte} (h : BufStartsWith s bytes)
    (hlen : bytes.length = 56) : BufStartsWith (padLength s) (bytes ++ bytesLE 8 (s.CNT * 8)) :=
  h.append (by rw [hlen]; rfl) rfl

theorem blockBytes_onlyBlock {s : State} (hlen : s.LEN.toNat ≤ 55) :
    blockBytes (onlyBlock s) = onlyPadding (pendingBytes s) s.CNT := by
  have hzeros := (bufStartsWith_pad80 s).padZeros 55
  simp only [List.length_append, pendingBytes_length, List.length_singleton, Nat.add_sub_add_right] at hzeros
  have hblock := (hzeros.padLength (by simp; omega)).blockBytes_eq (by simp; omega)
  rwa [onlyPadding, pendingBytes_length]

theorem blockBytes_firstBlock (s : State) : blockBytes (firstBlock s) = firstPadding (pendingBytes s) := by
  have hlen := s.LEN.isLt
  have hzeros := (bufStartsWith_pad80 s).padZeros 63
  simp only [List.length_append, pendingBytes_length, List.length_singleton, Nat.add_sub_add_right] at hzeros
  have hblock := hzeros.blockBytes_eq (by simp; omega)
  rwa [firstPadding, pendingBytes_length]

theorem blockBytes_secondBlock (s : State) : blockBytes (secondBlock s) = secondPadding s.CNT :=
  (((bufStartsWith_nil s).padZeros 55).padLength (by simp)).blockBytes_eq (by simp)

/-! ### The registers after FIN -/

theorem finBody_of_len_le {s : State} (h : s.LEN.toNat ≤ 55) :
    finBody s = freeLen (serialise (compress (onlyBlock s))) := by
  rw [finBody, if_pos h]

theorem finBody_of_len_gt {s : State} (h : 56 ≤ s.LEN.toNat) :
    finBody s = freeLen (serialise (compress (secondBlock (compress (firstBlock s))))) := by
  rw [finBody, if_neg (by omega)]

@[simp] theorem onlyBlock_S (s : State) : (onlyBlock s).S = s.S := (rfl)
@[simp] theorem onlyBlock_ROM (s : State) : (onlyBlock s).ROM = s.ROM := (rfl)
@[simp] theorem onlyBlock_DIG (s : State) : (onlyBlock s).DIG = s.DIG := (rfl)
@[simp] theorem firstBlock_S (s : State) : (firstBlock s).S = s.S := (rfl)
@[simp] theorem firstBlock_CNT (s : State) : (firstBlock s).CNT = s.CNT := (rfl)
@[simp] theorem firstBlock_ROM (s : State) : (firstBlock s).ROM = s.ROM := (rfl)
@[simp] theorem firstBlock_DIG (s : State) : (firstBlock s).DIG = s.DIG := (rfl)
@[simp] theorem secondBlock_S (s : State) : (secondBlock s).S = s.S := (rfl)
@[simp] theorem secondBlock_ROM (s : State) : (secondBlock s).ROM = s.ROM := (rfl)
@[simp] theorem secondBlock_DIG (s : State) : (secondBlock s).DIG = s.DIG := (rfl)

theorem finBody_S_of_len_le {s : State} (h : s.LEN.toNat ≤ 55) :
    (finBody s).S = compressRows s.ROM s.S (onlyPadding (pendingBytes s) s.CNT) := by
  rw [finBody_of_len_le h, freeLen_S, serialise_S, compress_S, onlyBlock_ROM, onlyBlock_S, blockBytes_onlyBlock h]

theorem finBody_S_of_len_gt {s : State} (h : 56 ≤ s.LEN.toNat) :
    (finBody s).S =
      compressRows s.ROM (compressRows s.ROM s.S (firstPadding (pendingBytes s))) (secondPadding s.CNT) := by
  rw [finBody_of_len_gt h, freeLen_S, serialise_S, compress_S, secondBlock_ROM, secondBlock_S, blockBytes_secondBlock,
    compress_ROM, compress_CNT, compress_S, firstBlock_ROM, firstBlock_S, firstBlock_CNT, blockBytes_firstBlock]

@[simp] theorem finBody_PHASE (s : State) : (finBody s).PHASE = .done := by
  unfold finBody
  split <;> rfl

@[simp] theorem finBody_ERR (s : State) : (finBody s).ERR = s.ERR := by
  unfold finBody
  split <;> simp [onlyBlock, firstBlock, secondBlock]

/-- SER writes the final S (R155). -/
theorem finBody_DIG (s : State) : (finBody s).DIG = s.DIG.writeBytes 0 (serialBytes (finBody s).S) := by
  unfold finBody
  split <;> simp

/-- What FIN leaves in DIG and in the status, whatever the number of final blocks (R103, R155). -/
structure FinishesWithDigest (s t : State) : Prop where
  digest : HoldsSerialised t.DIG t.S
  phase : t.PHASE = .done
  valid : digestValid t = true
  dig : SameBytesOutside 0 15 s.DIG t.DIG
  count : t.CNT = s.CNT
  err : t.ERR = s.ERR
  errlog : t.ERRLOG = s.ERRLOG
  rom : t.ROM = s.ROM
  sequencer : SameSequencer s t

theorem finishesWithDigest_finBody (s : State) : FinishesWithDigest s (finBody s) where
  digest := fun k j hk hj => by
    rw [finBody_DIG, Memory.read_writeBytes, if_pos (by rw [serialBytes_length]; omega), Nat.sub_zero,
      serialBytes_getElem? _ hk hj]
  phase := finBody_PHASE s
  valid := by simp [digestValid]
  dig := fun addr hout => by
    rw [finBody_DIG, Memory.read_writeBytes, if_neg (by rw [serialBytes_length]; omega)]
  count := finBody_CNT s
  err := finBody_ERR s
  errlog := finBody_ERRLOG s
  rom := finBody_ROM s
  sequencer := sameSequencer_perform .finalize s

/-! ### O22, O23: BUF after FIN, and FIN as a whole -/

theorem read_padLength (s : State) (j : Nat) : (padLength s).BUF.read j =
    if 56 ≤ j ∧ j < 64 then some ((s.CNT * 8).extractLsb' (8 * (j - 56)) 8) else s.BUF.read j := by
  rw [padLength_BUF, Memory.read_writeBytes, bytesLE_length]
  split
  · rw [bytesLE_getElem? _ (by omega)]; rfl
  · rfl

theorem read_onlyBlock (s : State) (j : Nat) : (onlyBlock s).BUF.read j =
    if 56 ≤ j ∧ j < 64 then some ((s.CNT * 8).extractLsb' (8 * (j - 56)) 8)
    else if s.LEN.toNat + 1 ≤ j ∧ j ≤ 55 then some 0
    else if j = s.LEN.toNat then some 0x80 else s.BUF.read j := by
  rw [onlyBlock, read_padLength, padZeros_BUF, Memory.read_zeroFill, pad80_BUF, Memory.read_write]
  rfl

theorem read_secondBlock (s : State) (j : Nat) : (secondBlock s).BUF.read j =
    if 56 ≤ j ∧ j < 64 then some ((s.CNT * 8).extractLsb' (8 * (j - 56)) 8)
    else if 0 ≤ j ∧ j ≤ 55 then some 0 else s.BUF.read j := by
  rw [secondBlock, read_padLength, padZeros_BUF, Memory.read_zeroFill]
  rfl

theorem finBody_BUF_of_len_le {s : State} (h : s.LEN.toNat ≤ 55) : (finBody s).BUF = (onlyBlock s).BUF := by
  rw [finBody_of_len_le h, freeLen_BUF, serialise_BUF, compress_BUF]

theorem finBody_BUF_of_len_gt {s : State} (h : 56 ≤ s.LEN.toNat) :
    (finBody s).BUF = (secondBlock (compress (firstBlock s))).BUF := by
  rw [finBody_of_len_gt h, freeLen_BUF, serialise_BUF, compress_BUF]

/-- Settles O22: the one final block is padded behind the pending bytes and compressed. -/
theorem finWithOneFinalBlock : Obligations.FinWithOneFinalBlock := by
  unfold Obligations.FinWithOneFinalBlock
  intro s hp hlen hrom
  obtain ⟨digest, phase, valid, dig, count, err, errlog, rom, sequencer⟩ := finishesWithDigest_finBody s
  refine ⟨finBody s, exec_fin_of_absorb hp, ?_, digest, phase, valid, ?_, fun j hj hj' => ?_, fun k hk => ?_,
    fun j hout => ?_, dig, count, err, errlog, rom, sequencer⟩
  · rw [finBody_S_of_len_le hlen, hrom, compressRows_romTable, onlyPadding, pendingBytes_length, pendingBytes]
  · rw [finBody_BUF_of_len_le hlen, read_onlyBlock, if_neg (by omega), if_neg (by omega), if_pos rfl]
  · rw [finBody_BUF_of_len_le hlen, read_onlyBlock, if_neg (by omega), if_pos (by omega)]
  · rw [finBody_BUF_of_len_le hlen, read_onlyBlock, if_pos (by omega), Nat.add_sub_cancel_left]
  · rw [finBody_BUF_of_len_le hlen, read_onlyBlock, if_neg (by omega), if_neg (by omega), if_neg (by omega)]

/-- Settles O23: the first final block ends the pending bytes, the second carries the length field alone. -/
theorem finWithTwoFinalBlocks : Obligations.FinWithTwoFinalBlocks := by
  unfold Obligations.FinWithTwoFinalBlocks
  intro s hp hlen hrom
  obtain ⟨digest, phase, valid, dig, count, err, errlog, rom, sequencer⟩ := finishesWithDigest_finBody s
  have hlt := s.LEN.isLt
  refine ⟨finBody s, exec_fin_of_absorb hp, ?_, digest, phase, valid, fun j hj => ?_, fun k hk => ?_,
    fun j hout => ?_, dig, count, err, errlog, rom, sequencer⟩
  · rw [finBody_S_of_len_gt hlen, hrom, compressRows_romTable, compressRows_romTable, firstPadding, secondPadding,
      pendingBytes_length, pendingBytes]
  · rw [finBody_BUF_of_len_gt hlen, read_secondBlock, if_neg (by omega), if_pos (by omega)]
  · rw [finBody_BUF_of_len_gt hlen, read_secondBlock, if_pos (by omega), Nat.add_sub_cancel_left, compress_CNT,
      firstBlock_CNT]
  · rw [finBody_BUF_of_len_gt hlen, read_secondBlock, if_neg (by omega), if_neg (by omega), compress_BUF, firstBlock,
      padZeros_BUF, Memory.read_zeroFill, if_neg (by omega), pad80_BUF, Memory.read_write_other _ _ (by omega)]

end Sys2Proof.Machine
end

section
/-! PROOFS. Runs of host commands at the command level: each accepted word is one transition on the registers, a quiet
edge is none, and so the splitting of the input into chunks does not matter (40_host_commands R104, R105). -/

namespace Sys2Proof.Machine

/-! ### A command leaves the host's events alone -/

/-- The state with other events to come. -/
def State.withStim (s : State) (stim : List HostEvent) : State := { s with stim := stim }

@[simp] theorem withStim_LEN (s : State) (stim : List HostEvent) : (s.withStim stim).LEN = s.LEN := (rfl)

theorem beginCompress_withStim (s : State) (stim : List HostEvent) :
    beginCompress (s.withStim stim) = (beginCompress s).withStim stim := (rfl)

theorem endCompress_withStim (s : State) (stim : List HostEvent) :
    endCompress (s.withStim stim) = (endCompress s).withStim stim := (rfl)

theorem compress_withStim (s : State) (stim : List HostEvent) :
    compress (s.withStim stim) = (compress s).withStim stim := by
  have hsteps : romSteps 64 ((beginCompress s).withStim stim) = (romSteps 64 (beginCompress s)).withStim stim :=
    romSteps_withStim 64 (beginCompress s) stim
  rw [compress, beginCompress_withStim, hsteps, endCompress_withStim, compress]

theorem absorbByte_withStim (x : Byte) (s : State) (stim : List HostEvent) :
    absorbByte x (s.withStim stim) = (absorbByte x s).withStim stim := (rfl)

theorem onlyBlock_withStim (s : State) (stim : List HostEvent) :
    onlyBlock (s.withStim stim) = (onlyBlock s).withStim stim := (rfl)

theorem firstBlock_withStim (s : State) (stim : List HostEvent) :
    firstBlock (s.withStim stim) = (firstBlock s).withStim stim := (rfl)

theorem secondBlock_withStim (s : State) (stim : List HostEvent) :
    secondBlock (s.withStim stim) = (secondBlock s).withStim stim := (rfl)

theorem serialise_withStim (s : State) (stim : List HostEvent) :
    serialise (s.withStim stim) = (serialise s).withStim stim := (rfl)

theorem freeLen_withStim (s : State) (stim : List HostEvent) :
    freeLen (s.withStim stim) = (freeLen s).withStim stim := (rfl)

theorem updBody_withStim (x : Byte) (s : State) (stim : List HostEvent) :
    updBody x (s.withStim stim) = (updBody x s).withStim stim := by
  rw [updBody, withStim_LEN, absorbByte_withStim, compress_withStim, updBody, ← apply_ite (State.withStim · stim)]

theorem finBody_withStim (s : State) (stim : List HostEvent) :
    finBody (s.withStim stim) = (finBody s).withStim stim := by
  rw [finBody, withStim_LEN, onlyBlock_withStim, compress_withStim, serialise_withStim, freeLen_withStim,
    firstBlock_withStim, compress_withStim, secondBlock_withStim, compress_withStim, serialise_withStim,
    freeLen_withStim, finBody, ← apply_ite (State.withStim · stim)]

theorem perform_withStim (action : Action) (s : State) (stim : List HostEvent) :
    perform action (s.withStim stim) = (perform action s).withStim stim := by
  cases action with
  | discard => rfl
  | load => rfl
  | raise cause => rfl
  | absorb x => exact updBody_withStim x s stim
  | finalize => exact finBody_withStim s stim

/-! ### Runs of commands -/

/-- At a command boundary an offered word is one step: the whole transition on the registers (R9, R100). -/
theorem runs_command {s : State} (hs : AtBoundary s) {action : Action} (w : BitVec 10) (rest : List HostEvent)
    (ha : commandAction w s = action) :
    Runs 1 (s.withStim (.cmd w :: rest)) ((perform action s).withStim rest) := by
  obtain ⟨hq, hl⟩ := hs
  have hstep := step_command (s := s.withStim (.cmd w :: rest)) hq hl rfl
  rw [commandAction_congr (s := s) (t := s.withStim (.cmd w :: rest)) w rfl rfl, ha] at hstep
  exact ⟨_, hstep, perform_withStim action s rest⟩

theorem commandAction_upd (x : Byte) (s : State) : commandAction (0b01#2 ++ x) s = updAction x s := by
  have hd : decodeCmd (0b01#2 ++ x) = .instr (.upd x) := decode_encode (.upd x)
  simp only [commandAction, hd]

theorem commandAction_init (s : State) : commandAction 0x000 s = .load := by
  have hd : decodeCmd 0x000 = .instr .init := decode_encode .init
  simp only [commandAction, hd, initAction]

theorem commandAction_fin (s : State) : commandAction 0x200 s = finAction s := by
  have hd : decodeCmd 0x200 = .instr .fin := decode_encode .fin
  simp only [commandAction, hd]

/-- The whole transition of UPD x in any phase (R100, R102). -/
def afterUpd (s : State) (x : Byte) : State := perform (updAction x s) s

/-- One UPD per byte, in order. -/
def afterUpds (bytes : List Byte) (s : State) : State := bytes.foldl afterUpd s

@[simp] theorem afterUpds_nil (s : State) : afterUpds [] s = s := rfl

@[simp] theorem afterUpds_cons (x : Byte) (bytes : List Byte) (s : State) :
    afterUpds (x :: bytes) s = afterUpds bytes (afterUpd s x) := rfl

theorem afterUpds_append (bytes more : List Byte) (s : State) :
    afterUpds (bytes ++ more) s = afterUpds more (afterUpds bytes s) := List.foldl_append

theorem afterUpds_concat (bytes : List Byte) (x : Byte) (s : State) :
    afterUpds (bytes ++ [x]) s = afterUpd (afterUpds bytes s) x := afterUpds_append bytes [x] s

theorem atBoundary_afterUpds {s : State} (hs : AtBoundary s) (bytes : List Byte) : AtBoundary (afterUpds bytes s) := by
  induction bytes generalizing s with
  | nil => exact hs
  | cons x bytes ih => exact ih (atBoundary_perform hs (updAction x s))

/-- UPDATE runs one UPD per byte. -/
theorem runs_update {s : State} (hs : AtBoundary s) (bytes : List Byte) (rest : List HostEvent) :
    Runs bytes.length (s.withStim (updateEvents bytes ++ rest)) ((afterUpds bytes s).withStim rest) := by
  induction bytes generalizing s with
  | nil => rfl
  | cons x bytes ih =>
    rw [List.length_cons, Nat.add_comm]
    exact (runs_command hs _ _ (commandAction_upd x s)).trans (ih (atBoundary_perform hs (updAction x s)))

/-- Quiet edges pass (R184). -/
theorem runs_quiet {s : State} (hs : AtBoundary s) (n : Nat) (rest : List HostEvent) :
    Runs n (s.withStim (List.replicate n .quiet ++ rest)) (s.withStim rest) := by
  induction n with
  | zero => rfl
  | succ n ih =>
    exact ⟨_, step_quiet (s := s.withStim (List.replicate (n + 1) .quiet ++ rest)) hs.1 rfl, ih⟩

@[simp] theorem updateEvents_length (bytes : List Byte) : (updateEvents bytes).length = bytes.length := by
  simp [updateEvents]

theorem chunkedEvents_cons (bytes : List Byte) (n : Nat) (chunks : List (List Byte × Nat)) :
    chunkedEvents ((bytes, n) :: chunks) = updateEvents bytes ++ List.replicate n .quiet ++ chunkedEvents chunks := rfl

/-- Chunks run one UPD per byte of all of them. -/
theorem runs_chunked {s : State} (hs : AtBoundary s) (chunks : List (List Byte × Nat)) (rest : List HostEvent) :
    Runs (chunkedEvents chunks).length (s.withStim (chunkedEvents chunks ++ rest))
      ((afterUpds (chunks.flatMap Prod.fst) s).withStim rest) := by
  induction chunks generalizing s with
  | nil => rfl
  | cons chunk chunks ih =>
    obtain ⟨bytes, n⟩ := chunk
    have hs' := atBoundary_afterUpds hs bytes
    have hupdate := runs_update hs bytes (List.replicate n .quiet ++ (chunkedEvents chunks ++ rest))
    have hquiet := runs_quiet hs' n (chunkedEvents chunks ++ rest)
    rw [List.flatMap_cons, afterUpds_append, chunkedEvents_cons]
    simp only [List.length_append, updateEvents_length, List.length_replicate, List.append_assoc]
    exact hupdate.trans (hquiet.trans (ih hs'))

/-! ### O50: chunking does not matter -/

theorem afterUpd_of_absorb {s : State} (x : Byte) (hp : s.PHASE = .absorb) (hc : s.CNT.toNat < 2 ^ 61 - 1) :
    afterUpd s x = updBody x s := by
  rw [afterUpd, updAction_of_absorb x hp hc, perform]

/-- While there is room an absorbing core counts every byte (R102, R28, R29). -/
theorem afterUpds_counts {s : State} (hp : s.PHASE = .absorb) (bytes : List Byte)
    (hroom : s.CNT.toNat + bytes.length ≤ 2 ^ 61 - 1) :
    (afterUpds bytes s).PHASE = .absorb ∧ (afterUpds bytes s).CNT.toNat = s.CNT.toNat + bytes.length ∧
      (afterUpds bytes s).LEN.toNat = (s.LEN.toNat + bytes.length) % 64 := by
  induction bytes generalizing s with
  | nil =>
    have hlen := s.LEN.isLt
    exact ⟨hp, rfl, by simp; omega⟩
  | cons x bytes ih =>
    rw [List.length_cons] at hroom ⊢
    have hc : s.CNT.toNat < 2 ^ 61 - 1 := by omega
    have hcnt : (updBody x s).CNT.toNat = s.CNT.toNat + 1 := by rw [updBody_CNT, toNat_cnt_add_one hc]
    have hlen : (updBody x s).LEN.toNat = (s.LEN.toNat + 1) % 64 := by rw [updBody_LEN, toNat_len_add_one]
    obtain ⟨hp', hc', hl'⟩ := ih (s := updBody x s) (by rw [updBody_PHASE, hp]) (by omega)
    rw [afterUpds_cons, afterUpd_of_absorb x hp hc]
    exact ⟨hp', by omega, by omega⟩

/-- The last byte absorbed stands in BUF just before LEN (R102). -/
theorem afterUpds_last_byte {s : State} (hp : s.PHASE = .absorb) {bytes : List Byte}
    (hroom : s.CNT.toNat + bytes.length ≤ 2 ^ 61 - 1) {x : Byte} (hx : bytes.getLast? = some x) :
    (afterUpds bytes s).BUF.read (((afterUpds bytes s).LEN.toNat + 63) % 64) = some x := by
  obtain ⟨before, rfl⟩ := List.getLast?_eq_some_iff.1 hx
  rw [List.length_append, List.length_singleton] at hroom
  obtain ⟨hp', hc', -⟩ := afterUpds_counts hp before (by omega)
  rw [afterUpds_concat, afterUpd_of_absorb x hp' (by omega)]
  generalize afterUpds before s = m
  have haddr : ((m.LEN.toNat + 1) % 64 + 63) % 64 = m.LEN.toNat := by
    have := m.LEN.isLt
    omega
  rw [updBody_LEN, updBody_BUF, toNat_len_add_one, haddr, Memory.read_write_same]

/-- Settles O50: both runs end after one UPD per byte. -/
theorem chunkingDoesNotMatter : Obligations.ChunkingDoesNotMatter := by
  unfold Obligations.ChunkingDoesNotMatter
  intro chunks s rest hs
  refine ⟨_, runs_chunked hs chunks rest, runs_update hs _ rest, atBoundary_afterUpds hs _, rfl, fun hp hroom => ?_⟩
  obtain ⟨hphase, hcnt, hlen⟩ := afterUpds_counts hp _ hroom
  exact ⟨hphase, hcnt, hlen, fun x hx => afterUpds_last_byte hp hroom hx⟩

end Sys2Proof.Machine
end

section
/-! PROOFS. The whole function (40_host_commands R109): INIT, one UPD per byte and FIN end with the digest of the
message. -/

namespace Sys2Proof.Machine

/-! ### Blocks of a list -/

theorem hashBlocks_zero (p : List Byte) (h : Chain) : hashBlocks 0 p h = h := rfl

/-- The recursion of `hashBlocks`. Compress is made a variable first: otherwise the kernel unfolds it to
compare. -/
theorem hashBlocks_succ (k : Nat) (p : List Byte) (h : Chain) :
    hashBlocks (k + 1) p h = hashBlocks k (p.drop 64) (compressFn h (p.take 64)) := by
  delta hashBlocks hashBlocks._f
  generalize compressFn = f
  rfl

/-- The blocks of a list are hashed before what follows them. -/
theorem hashBlocks_append {k : Nat} (j : Nat) {blocks : List Byte} (tail : List Byte) (h : Chain)
    (hlen : blocks.length = 64 * k) :
    hashBlocks (k + j) (blocks ++ tail) h = hashBlocks j tail (hashBlocks k blocks h) := by
  induction k generalizing blocks h with
  | zero =>
    obtain rfl : blocks = [] := List.eq_nil_of_length_eq_zero hlen
    rw [Nat.zero_add, List.nil_append, hashBlocks_zero]
  | succ k ih =>
    have hdrop : (blocks ++ tail).drop 64 = blocks.drop 64 ++ tail := List.drop_append_of_le_length (by omega)
    have htake : (blocks ++ tail).take 64 = blocks.take 64 := List.take_append_of_le_length (by omega)
    have hrest : (blocks.drop 64).length = 64 * k := by rw [List.length_drop, hlen, Nat.mul_succ, Nat.add_sub_cancel]
    rw [Nat.succ_add, hashBlocks_succ, hdrop, htake, ih _ hrest, hashBlocks_succ]

theorem hashBlocks_one {block : List Byte} (h : Chain) (hlen : block.length = 64) :
    hashBlocks 1 block h = compressFn h block := by
  rw [hashBlocks_succ, hashBlocks_zero, List.take_of_length_le hlen.le]

/-! ### The message absorbed so far -/

/-- The absorbing core `s` has taken in `msg`: its whole blocks stand in S, the rest in BUF (R102). -/
structure Absorbed (msg : List Byte) (s : State) : Prop where
  phase : s.PHASE = .absorb
  noErr : s.ERR = .none
  rom : s.ROM = romTable
  count : s.CNT.toNat = msg.length
  hashed : ∃ k blocks, blocks.length = 64 * k ∧ msg = blocks ++ pendingBytes s ∧ s.S = hashBlocks k blocks iv

theorem absorbed_createAccumulator {s : State} (hrom : s.ROM = romTable) : Absorbed [] (createAccumulator s) where
  phase := rfl
  noErr := rfl
  rom := hrom
  count := rfl
  hashed := ⟨0, [], rfl, rfl, rfl⟩

/-- One more byte, pending or the last of a block (R102). -/
theorem Absorbed.after_updBody {msg : List Byte} {s : State} (h : Absorbed msg s) (hmax : msg.length < 2 ^ 61 - 1)
    (x : Byte) : Absorbed (msg ++ [x]) (updBody x s) := by
  obtain ⟨phase, noErr, rom, count, k, blocks, hblocks, hmsg, hS⟩ := h
  refine ⟨(updBody_PHASE x s).trans phase, (updBody_ERR x s).trans noErr, (updBody_ROM x s).trans rom, ?_, ?_⟩
  · rw [updBody_CNT, toNat_cnt_add_one (by omega), count, List.length_append, List.length_singleton]
  · by_cases hlen : s.LEN = 63#6
    · have hblock : (pendingBytes s ++ [x]).length = 64 := by simp [hlen]
      have hnone : pendingBytes (updBody x s) = [] :=
        (bufStartsWith_nil (updBody x s)).pendingBytes_eq (by rw [updBody_LEN, hlen]; rfl)
      refine ⟨k + 1, blocks ++ (pendingBytes s ++ [x]), by rw [List.length_append, hblocks, hblock]; omega, ?_, ?_⟩
      · rw [hnone, List.append_nil, hmsg, List.append_assoc]
      · rw [updBody_S_of_len_eq x hlen, rom, compressRows_romTable, hS, hashBlocks_append 1 _ _ hblocks,
          hashBlocks_one _ hblock]
    · rw [updBody_of_len_ne x hlen]
      have hmore : pendingBytes (absorbByte x s) = pendingBytes s ++ [x] :=
        (bufStartsWith_absorbByte x s).pendingBytes_eq (by simp; bv_omega)
      exact ⟨k, blocks, hblocks, by rw [hmore, hmsg, List.append_assoc], hS⟩

/-- One UPD per byte takes in the message; no fault, no entry in ERRLOG. -/
theorem absorbed_afterUpds {s : State} (h : Absorbed [] s) (msg : List Byte) (hmax : msg.length ≤ 2 ^ 61 - 1) :
    Absorbed msg (afterUpds msg s) ∧ (afterUpds msg s).ERRLOG = s.ERRLOG := by
  induction msg using List.reverseRecOn with
  | nil => exact ⟨h, rfl⟩
  | append_singleton msg x ih =>
    rw [List.length_append, List.length_singleton] at hmax
    obtain ⟨habs, hlog⟩ := ih (by omega)
    rw [afterUpds_concat, afterUpd_of_absorb x habs.phase (by rw [habs.count]; omega)]
    exact ⟨habs.after_updBody (by omega) x, (updBody_ERRLOG x _).trans hlog⟩

/-! ### The padded message -/

/-- The length field is that of R109. -/
theorem Absorbed.bitLength {msg : List Byte} {s : State} (h : Absorbed msg s) :
    s.CNT * 8 = BitVec.ofNat 64 (8 * msg.length) := by
  apply BitVec.eq_of_toNat_eq
  rw [BitVec.toNat_mul, h.count, BitVec.toNat_ofNat, Nat.mul_comm]
  rfl

/-- With at most 55 pending bytes the padded message is its blocks and the one final block (R150, R157). -/
theorem padded_of_le {blocks pending : List Byte} {k : Nat} {count : BitVec 64} (hblocks : blocks.length = 64 * k)
    (hle : pending.length ≤ 55) (hcount : count * 8 = BitVec.ofNat 64 (8 * (blocks ++ pending).length)) :
    padded (blocks ++ pending) = blocks ++ onlyPadding pending count := by
  have hzeros : zeroCount (blocks ++ pending).length = 55 - pending.length := by
    rw [zeroCount, List.length_append, hblocks]
    omega
  simp only [padded, onlyPadding, hzeros, hcount, List.append_assoc]

/-- With more, it is its blocks and the two final blocks. -/
theorem padded_of_gt {blocks pending : List Byte} {k : Nat} {count : BitVec 64} (hblocks : blocks.length = 64 * k)
    (hge : 56 ≤ pending.length) (hlt : pending.length < 64)
    (hcount : count * 8 = BitVec.ofNat 64 (8 * (blocks ++ pending).length)) :
    padded (blocks ++ pending) = blocks ++ (firstPadding pending ++ secondPadding count) := by
  have hzeros : zeroCount (blocks ++ pending).length = 63 - pending.length + 56 := by
    rw [zeroCount, List.length_append, hblocks]
    omega
  simp only [padded, firstPadding, secondPadding, hzeros, hcount, List.replicate_add, List.append_assoc]

theorem onlyPadding_length {pending : List Byte} (count : BitVec 64) (h : pending.length ≤ 55) :
    (onlyPadding pending count).length = 64 := by
  simp only [onlyPadding, List.length_append, List.length_singleton, List.length_replicate, bytesLE_length]
  omega

theorem firstPadding_length {pending : List Byte} (h : pending.length < 64) : (firstPadding pending).length = 64 := by
  simp only [firstPadding, List.length_append, List.length_singleton, List.length_replicate]
  omega

theorem secondPadding_length (count : BitVec 64) : (secondPadding count).length = 64 := by
  simp [secondPadding]

/-- Digest(m) is the serialised hash of the blocks and of what follows them in the padded message (R109). -/
theorem digest_of_padded {msg blocks final : List Byte} {k : Nat} (j : Nat) (hpad : padded msg = blocks ++ final)
    (hblocks : blocks.length = 64 * k) (hfinal : final.length = 64 * j) :
    digest msg = serialBytes (hashBlocks j final (hashBlocks k blocks iv)) := by
  have hcount : (padded msg).length / 64 = k + j := by
    rw [hpad, List.length_append, hblocks, hfinal]
    omega
  rw [digest, hcount, hpad, hashBlocks_append j final iv hblocks]

/-- FIN leaves in S what Digest(m) serialises (R103, R109). -/
theorem Absorbed.digest_eq {msg : List Byte} {s : State} (h : Absorbed msg s) :
    digest msg = serialBytes (finBody s).S := by
  have hbits := h.bitLength
  obtain ⟨-, -, rom, -, k, blocks, hblocks, hmsg, hS⟩ := h
  rw [hmsg] at hbits ⊢
  have hlt := s.LEN.isLt
  have hpending := pendingBytes_length s
  by_cases hlen : s.LEN.toNat ≤ 55
  · have hone := onlyPadding_length s.CNT (hpending.trans_le hlen)
    rw [digest_of_padded 1 (padded_of_le hblocks (by omega) hbits) hblocks hone, hashBlocks_one _ hone,
      finBody_S_of_len_le hlen, rom, compressRows_romTable, hS]
  · have hfirst := firstPadding_length (pending := pendingBytes s) (by omega)
    have hsecond := secondPadding_length s.CNT
    rw [digest_of_padded 2 (padded_of_gt hblocks (by omega) (by omega) hbits) hblocks
        (by rw [List.length_append, hfirst, hsecond]),
      hashBlocks_append (k := 1) 1 _ _ hfirst, hashBlocks_one _ hfirst, hashBlocks_one _ hsecond,
      finBody_S_of_len_gt (by omega), rom, compressRows_romTable, compressRows_romTable, hS]

/-! ### O48: every message gets its digest -/

/-- NEW, UPDATE and FINALIZE of a message run INIT, one UPD per byte and FIN. -/
theorem runs_digest {s : State} (hs : AtBoundary s) (hrom : s.ROM = romTable) {msg : List Byte}
    (hmax : msg.length ≤ 2 ^ 61 - 1) (rest : List HostEvent) :
    Runs (msg.length + 2) (s.withStim (digestEvents msg ++ rest))
      ((finBody (afterUpds msg (createAccumulator s))).withStim rest) := by
  have hs' : AtBoundary (createAccumulator s) := atBoundary_perform hs .load
  have habs := (absorbed_afterUpds (absorbed_createAccumulator hrom) msg hmax).1
  have hinit := runs_command hs 0x000 (updateEvents msg ++ (finalizeEvents ++ rest)) (commandAction_init s)
  have hupdate := runs_update hs' msg (finalizeEvents ++ rest)
  have hfin := runs_command (atBoundary_afterUpds hs' msg) 0x200 rest
    ((commandAction_fin _).trans (finAction_of_absorb habs.phase))
  have hrun := (hinit.trans hupdate).trans hfin
  rw [show 1 + msg.length + 1 = msg.length + 2 by omega] at hrun
  rw [digestEvents, List.append_assoc, List.append_assoc]
  exact hrun

/-- Settles O48: the bytes are taken in one by one, and FIN serialises the hash of the padded message. -/
theorem everyMessageGetsItsDigest : Obligations.EveryMessageGetsItsDigest := by
  unfold Obligations.EveryMessageGetsItsDigest
  intro msg s rest hmax hs hrom hstim
  obtain ⟨habs, hlog⟩ := absorbed_afterUpds (absorbed_createAccumulator hrom) msg hmax
  have hrun := runs_digest hs hrom hmax rest
  have hboundary := atBoundary_perform (atBoundary_afterUpds (atBoundary_perform hs .load) msg) .finalize
  rw [← hstim] at hrun
  refine ⟨_, hrun, hboundary, rfl, finBody_PHASE _, (finBody_ERR _).trans habs.noErr, (finBody_ERRLOG _).trans hlog,
    (congrArg BitVec.toNat (finBody_CNT _)).trans habs.count, ?_, fun j hj => ?_⟩
  · rw [habs.digest_eq, serialBytes_length]
  · have hread := congrArg (Memory.read · j) (finBody_DIG (afterUpds msg (createAccumulator s)))
    rw [Memory.read_writeBytes, if_pos (by rw [serialBytes_length]; omega), Nat.sub_zero, ← habs.digest_eq] at hread
    exact hread

end Sys2Proof.Machine
end

section
/-! PROOFS. Non-interference (40_host_commands R106, 10_state R36): nothing that the host sees depends on scratch. -/

namespace Sys2Proof.Machine

/-! ### The ports -/

/-- A listed byte reads the same whatever the number of the next free value (R66). -/
theorem Memory.byteAt_congr {m m' : Memory} {addr : Nat} (fresh fresh' : Nat) (hread : m'.read addr = m.read addr)
    (hlisted : (m.read addr).isSome = true) : m'.byteAt fresh' addr = m.byteAt fresh addr := by
  obtain ⟨v, hv⟩ := Option.isSome_iff_exists.1 hlisted
  rw [Memory.byteAt_of_read fresh hv, Memory.byteAt_of_read fresh' (hread.trans hv)]

/-- A digest of listed bytes does not depend on the number of the next free value. -/
theorem digestBits_congr {s t : State} (hdig : t.DIG = s.DIG) (hlisted : s.DIG.ListedBelow 16) :
    digestBits t = digestBits s := by
  have hbyte : ∀ j, j < 16 → digByte t j = digByte s j := fun j hj =>
    Memory.byteAt_congr s.fresh t.fresh (congrArg (Memory.read · j) hdig) (hlisted j hj)
  simp [digestBits, hbyte]

theorem SameForHost.ports_eq {s t : State} (h : SameForHost s t) : ports t = ports s := by
  have hready : cmdReady t = cmdReady s := by
    rw [cmdReady, cmdReady, rstPin, rstPin, h.left.1, h.right.1, h.stim]
  have hvalid : digestValid t = digestValid s := by rw [digestValid, digestValid, h.phase]
  have herr : errFlag t = errFlag s := by rw [errFlag, errFlag, h.phase]
  have hdigest : (if digestValid s then some (digestBits t) else none) =
      if digestValid s then some (digestBits s) else none := by
    by_cases hp : s.PHASE = .done
    · rw [digestBits_congr h.dig (h.digest hp)]
    · simp [digestValid, hp]
  simp only [ports, hready, hvalid, herr, hdigest, h.err, h.errlog]

/-! ### What a command makes of two states that differ in scratch -/

theorem SameForHost.withStim {s t : State} (h : SameForHost s t) (stim : List HostEvent) :
    SameForHost (s.withStim stim) (t.withStim stim) :=
  ⟨h.left, h.right, h.rom, h.phase, h.err, h.errlog, h.dig, rfl, h.digest, h.computation, h.pending⟩

theorem SameForHost.pendingBytes_eq {s t : State} (h : SameForHost s t) (hp : s.PHASE = .absorb) :
    pendingBytes t = pendingBytes s := by
  obtain ⟨-, -, hlen⟩ := h.computation hp
  rw [pendingBytes, pendingBytes, hlen]
  refine List.map_congr_left fun j hj => ?_
  obtain ⟨hlisted, hread⟩ := h.pending hp j (List.mem_range.1 hj)
  exact Memory.byteAt_congr s.fresh t.fresh hread hlisted

/-- Two fresh Accumulators have no pending byte and no digest (R38). -/
theorem sameForHost_of_fresh {s t : State} (left : AtBoundary s) (right : AtBoundary t) (rom : t.ROM = s.ROM)
    (err : t.ERR = s.ERR) (errlog : t.ERRLOG = s.ERRLOG) (dig : t.DIG = s.DIG) (stim : t.stim = s.stim)
    (hs : s.PHASE = .absorb) (ht : t.PHASE = .absorb) (hlen : s.LEN = 0)
    (computation : t.S = s.S ∧ t.CNT = s.CNT ∧ t.LEN = s.LEN) : SameForHost s t where
  left := left
  right := right
  rom := rom
  phase := ht.trans hs.symm
  err := err
  errlog := errlog
  dig := dig
  stim := stim
  digest := fun hd => by simp [hs] at hd
  computation := fun _ => computation
  pending := fun _ j hj => by simp [hlen] at hj

theorem SameForHost.after_createAccumulator {s t : State} (h : SameForHost s t) :
    SameForHost (createAccumulator s) (createAccumulator t) :=
  sameForHost_of_fresh h.left h.right h.rom rfl h.errlog rfl h.stim rfl rfl rfl ⟨rfl, rfl, rfl⟩

theorem SameForHost.after_resetCore {s t : State} (h : SameForHost s t) : SameForHost (resetCore s) (resetCore t) :=
  sameForHost_of_fresh ⟨rfl, h.left.2⟩ ⟨rfl, h.right.2⟩ h.rom rfl rfl rfl h.stim rfl rfl rfl ⟨rfl, rfl, rfl⟩

theorem SameForHost.after_raiseFault {s t : State} (h : SameForHost s t) (cause : Cause) :
    SameForHost (raiseFault cause s) (raiseFault cause t) where
  left := h.left
  right := h.right
  rom := h.rom
  phase := rfl
  err := rfl
  errlog := by rw [raiseFault_ERRLOG, raiseFault_ERRLOG, h.errlog]
  dig := rfl
  stim := h.stim
  digest := fun h => by cases h
  computation := fun h => by cases h
  pending := fun h => by cases h

/-- UPD reads the pending bytes only, also where it compresses (R102). -/
theorem SameForHost.after_updBody {s t : State} (h : SameForHost s t) (hp : s.PHASE = .absorb) (x : Byte) :
    SameForHost (updBody x s) (updBody x t) := by
  obtain ⟨hS, hcnt, hlen⟩ := h.computation hp
  refine
    { left := atBoundary_perform h.left (.absorb x)
      right := atBoundary_perform h.right (.absorb x)
      rom := by simp [h.rom]
      phase := by simp [h.phase]
      err := by simp [h.err]
      errlog := by simp [h.errlog]
      dig := by simp [h.dig]
      stim := by simp [h.stim]
      digest := fun hd => by simp [hp] at hd
      computation := fun _ => ⟨?_, by simp [hcnt], by simp [hlen]⟩
      pending := fun _ j hj => ?_ }
  · by_cases hfull : s.LEN = 63#6
    · rw [updBody_S_of_len_eq x hfull, updBody_S_of_len_eq x (hlen.trans hfull), h.rom, hS, h.pendingBytes_eq hp]
    · rw [updBody_of_len_ne x hfull, updBody_of_len_ne x (hlen.trans_ne hfull), absorbByte_S, absorbByte_S, hS]
  · rw [updBody_LEN, toNat_len_add_one] at hj
    rw [updBody_BUF, updBody_BUF, hlen, Memory.read_write, Memory.read_write]
    by_cases hnew : j = s.LEN.toNat
    · simp [hnew]
    · rw [if_neg hnew, if_neg hnew]
      exact h.pending hp j (by omega)

/-- FIN leaves the same digest: what it compresses are S, CNT and the pending bytes (R103). -/
theorem SameForHost.finBody_S_eq {s t : State} (h : SameForHost s t) (hp : s.PHASE = .absorb) :
    (finBody t).S = (finBody s).S := by
  obtain ⟨hS, hcnt, hlen⟩ := h.computation hp
  by_cases hone : s.LEN.toNat ≤ 55
  · rw [finBody_S_of_len_le hone, finBody_S_of_len_le (by rwa [hlen]), h.rom, hS, hcnt, h.pendingBytes_eq hp]
  · have htwo : 56 ≤ s.LEN.toNat := Nat.lt_of_not_le hone
    rw [finBody_S_of_len_gt htwo, finBody_S_of_len_gt (by rwa [hlen]), h.rom, hS, hcnt, h.pendingBytes_eq hp]

theorem SameForHost.after_finBody {s t : State} (h : SameForHost s t) (hp : s.PHASE = .absorb) :
    SameForHost (finBody s) (finBody t) where
  left := atBoundary_perform h.left .finalize
  right := atBoundary_perform h.right .finalize
  rom := by simp [h.rom]
  phase := by simp
  err := by simp [h.err]
  errlog := by simp [h.errlog]
  dig := by rw [finBody_DIG, finBody_DIG, h.dig, h.finBody_S_eq hp]
  stim := by simp [h.stim]
  digest := fun _ => by
    rw [finBody_DIG]
    exact Memory.ListedBelow.writeBytes (n := 0) (fun j hj => by omega) (by simp)
  computation := fun ha => by simp at ha
  pending := fun ha => by simp at ha

/-! ### O51: scratch never reaches the host -/

/-- Outside phase ABSORB the dispatch of a word does not look at CNT. -/
theorem SameForHost.commandAction_eq {s t : State} (h : SameForHost s t) (w : BitVec 10) :
    commandAction w t = commandAction w s := by
  by_cases hp : s.PHASE = .absorb
  · exact commandAction_congr w h.phase (h.computation hp).2.1
  · simp only [commandAction, initAction, updAction, finAction, illegalAction, h.phase]
    cases hq : s.PHASE with
    | absorb => exact absurd hq hp
    | done => rfl
    | fault => rfl

theorem SameForHost.after_perform {s t : State} (h : SameForHost s t) (w : BitVec 10) :
    SameForHost (perform (commandAction w s) s) (perform (commandAction w t) t) := by
  rw [h.commandAction_eq w]
  cases ha : commandAction w s with
  | discard => exact h
  | load => exact h.after_createAccumulator
  | raise cause => exact h.after_raiseFault cause
  | absorb x => exact h.after_updBody (phase_of_commandAction (.inl ⟨x, ha⟩)) x
  | finalize => exact h.after_finBody (phase_of_commandAction (.inr ha))

/-- Settles O51: the ports read no scratch; an edge at a command boundary resets, passes or performs a command, and none
of these brings scratch out. -/
theorem scratchNeverReachesTheHost : Obligations.ScratchNeverReachesTheHost := by
  unfold Obligations.ScratchNeverReachesTheHost
  intro s t h
  refine ⟨h.ports_eq, ?_⟩
  have hboth : ∀ {e rest}, s.stim = e :: rest → t.stim = e :: rest := h.stim.trans
  cases hs : s.stim with
  | nil => exact ⟨s, t, step_empty h.left.1 hs, step_empty h.right.1 (h.stim.trans hs), h⟩
  | cons e rest =>
    cases e with
    | rst => exact ⟨_, _, step_rst hs, step_rst (hboth hs), (h.withStim rest).after_resetCore⟩
    | quiet => exact ⟨_, _, step_quiet h.left.1 hs, step_quiet h.right.1 (hboth hs), h.withStim rest⟩
    | cmd w =>
      have hperform := (h.withStim rest).after_perform w
      rw [commandAction_congr (s := s) (t := s.withStim rest) w rfl rfl,
        commandAction_congr (s := t) (t := t.withStim rest) w rfl rfl] at hperform
      exact ⟨_, _, step_command h.left.1 h.left.2 hs, step_command h.right.1 h.right.2 (hboth hs), hperform⟩

end Sys2Proof.Machine
end

section
/-! PROOFS. The Compressor (41_compressor R120 to R132): CBEG, the round functions, the four steps, CEND, their sequence
against the function form, and the rows of the ROM against the rules for their fields. -/

namespace Sys2Proof.Machine

/-! ### O32: the sequence -/

/-- Settles O32: what the sequence computes from the ROM, S and BUF is the function form when the ROM holds R130. -/
theorem compressSequenceIsTheFunction : Obligations.CompressSequenceIsTheFunction := by
  unfold Obligations.CompressSequenceIsTheFunction
  intro s hrom
  have hS : (compress s).S = compressFn s.S (blockBytes s) := by rw [compress_S, hrom, compressRows_romTable]
  exact ⟨hS, ⟨compress_CNT s, compress_LEN s⟩, fun addr => congrArg (Memory.read · addr) (compress_BUF s),
    fun addr => congrArg (Memory.read · addr) (compress_DIG s),
    ⟨compress_PHASE s, compress_ERR s, compress_ERRLOG s⟩, compress_ROM s⟩

/-! ### O5: the rows of the ROM -/

/-- The four index rules of R132 each use every message word once. -/
theorem refIndex_nodup : ∀ r, r < 4 → ((List.range 16).map fun j => refIndex (16 * r + j)).Nodup := by
  decide

theorem refIndex_lt (n : Nat) : refIndex n < 16 := by
  unfold refIndex
  split_ifs <;> omega

/-- The rotation amounts of R131. -/
theorem refRot_bounds : ∀ n, n < 64 → 4 ≤ refRot n ∧ refRot n ≤ 23 := by
  decide

theorem map_refK_range : (List.range 64).map refK = refKRound0 ++ refKRound1 ++ refKRound2 ++ refKRound3 := by
  decide

/-- The sum of the 64 constants (95_test_vectors 6.2). -/
theorem refK_sum : (List.range 64).foldl (fun acc n => acc + refK n) 0 = 0x27F3A0BC#32 := by
  rw [← List.foldl_map (f := refK) (g := fun acc k => acc + k), map_refK_range]
  simp [refKRound0, refKRound1, refKRound2, refKRound3]

/-- The exclusive or of the 64 constants (95_test_vectors 6.2). -/
theorem refK_xor : (List.range 64).foldl (fun acc n => acc ^^^ refK n) 0 = 0x10E6CC5A#32 := by
  rw [← List.foldl_map (f := refK) (g := fun acc k => acc ^^^ k), map_refK_range]
  simp [refKRound0, refKRound1, refKRound2, refKRound3]

/-- Settles O5: each row against the rules, then the rules' own ranges and the checksums of the column K. -/
theorem romRowsFollowTheStepRules : Obligations.RomRowsFollowTheStepRules := by
  unfold Obligations.RomRowsFollowTheStepRules
  exact ⟨romTable_fields, refIndex_nodup, fun n hn => ⟨refIndex_lt n, refRot_bounds n hn⟩, refK_sum, refK_xor⟩

/-! ### O27, O28: CBEG and CEND -/

/-- Settles O27: CBEG writes a, b, c, d and i only. -/
theorem cbegCopiesTheChainingState : Obligations.CbegCopiesTheChainingState := by
  unfold Obligations.CbegCopiesTheChainingState
  refine ⟨by decide, fun s => ?_⟩
  exact ⟨beginCompress s, rfl, beginCompress_a s, beginCompress_b s, beginCompress_c s, beginCompress_d s,
    beginCompress_i s, beginCompress_S s, ⟨rfl, rfl⟩, fun _ => rfl, fun _ => rfl, ⟨rfl, rfl, rfl⟩, rfl,
    .of_control rfl rfl⟩

/-- Settles O28: CEND adds word by word, each sum modulo 2^32 by itself. -/
theorem cendAddsTheWorkingRegisters : Obligations.CendAddsTheWorkingRegisters := by
  unfold Obligations.CendAddsTheWorkingRegisters
  refine ⟨by decide, fun s => ?_⟩
  exact ⟨endCompress s, rfl, BitVec.toNat_add s.S.w0 s.a, BitVec.toNat_add s.S.w1 s.b, BitVec.toNat_add s.S.w2 s.c,
    BitVec.toNat_add s.S.w3 s.d, ⟨rfl, rfl⟩, fun _ => rfl, fun _ => rfl, ⟨rfl, rfl, rfl⟩, rfl, .of_control rfl rfl⟩

/-! ### O29: the round functions -/

/-- F selects y or z by x (R123). -/
theorem getLsbD_fnF (x y z : Word) {n : Nat} (hn : n < 32) :
    (fnF x y z).getLsbD n = if x.getLsbD n then y.getLsbD n else z.getLsbD n := by
  rw [fnF, BitVec.getLsbD_or, BitVec.getLsbD_and, BitVec.getLsbD_and, BitVec.getLsbD_not]
  cases x.getLsbD n <;> simp [hn]

/-- G selects x or y by z (R123). -/
theorem getLsbD_fnG (x y z : Word) {n : Nat} (hn : n < 32) :
    (fnG x y z).getLsbD n = if z.getLsbD n then x.getLsbD n else y.getLsbD n := by
  rw [fnG, BitVec.getLsbD_or, BitVec.getLsbD_and, BitVec.getLsbD_and, BitVec.getLsbD_not]
  cases z.getLsbD n <;> simp [hn]

/-- H is the parity (R123). -/
theorem getLsbD_fnH (x y z : Word) (n : Nat) :
    (fnH x y z).getLsbD n = ((x.getLsbD n != y.getLsbD n) != z.getLsbD n) := by
  rw [fnH, BitVec.getLsbD_xor, BitVec.getLsbD_xor]

theorem getLsbD_fnI (x y z : Word) {n : Nat} (hn : n < 32) :
    (fnI x y z).getLsbD n = (y.getLsbD n != (x.getLsbD n || !z.getLsbD n)) := by
  simp [fnI, hn]

/-- Settles O29: the formulas by definition, the truth table function by function. -/
theorem roundFunctionsFollowTheTruthTable : Obligations.RoundFunctionsFollowTheTruthTable := by
  unfold Obligations.RoundFunctionsFollowTheTruthTable
  intro x y z
  exact ⟨rfl, rfl, rfl, rfl, fun n hn =>
    ⟨getLsbD_fnF x y z hn, getLsbD_fnG x y z hn, getLsbD_fnH x y z n, getLsbD_fnI x y z hn⟩⟩

/-! ### O30: the steps -/

/-- Below 63 the step counter does not wrap (R24). -/
theorem toNat_stepCounter_add_one {i : BitVec 6} (h : i ≠ 63#6) : (i + 1).toNat = i.toNat + 1 := by
  bv_omega

/-- What the common part of a step does with any value `f` of the round function (R124). -/
theorem stepResult_mixStep (f : Word) (g : BitVec 4) (rot : BitVec 5) (k : Word) (s : State) :
    StepResult f (messageWord s g) rot k s (mixStep f g rot k s) := by
  have hb (hrot : rot ≠ 0) :
      (mixStep f g rot k s).b = s.b + (s.a + f + messageWord s g + k).rotateLeft rot.toNat := by
    rw [mixStep_b, rotl32_eq_rotateLeft _ hrot, stepSum]
  have hi (hne : s.i ≠ 63#6) : (mixStep f g rot k s).i.toNat = s.i.toNat + 1 := by
    rw [mixStep_i, if_neg hne, toNat_stepCounter_add_one hne]
  exact ⟨hb, mixStep_a f g rot k s, mixStep_c f g rot k s, mixStep_d f g rot k s, hi, mixStep_S f g rot k s,
    ⟨rfl, rfl⟩, fun _ => rfl, fun _ => rfl, ⟨rfl, rfl, rfl⟩, rfl, .of_control rfl rfl⟩

/-- Settles O30: the four steps differ in the round function alone. -/
theorem stepsMixTheWorkingRegisters : Obligations.StepsMixTheWorkingRegisters := by
  unfold Obligations.StepsMixTheWorkingRegisters
  intro g rot k s
  exact ⟨⟨_, rfl, stepResult_mixStep (fnF s.b s.c s.d) g rot k s⟩,
    ⟨_, rfl, stepResult_mixStep (fnG s.b s.c s.d) g rot k s⟩,
    ⟨_, rfl, stepResult_mixStep (fnH s.b s.c s.d) g rot k s⟩,
    ⟨_, rfl, stepResult_mixStep (fnI s.b s.c s.d) g rot k s⟩⟩

end Sys2Proof.Machine
end

section
/-! PROOFS. The Padder/Finalizer (42_padder_finalizer R151 to R157): what PAD80, PADZ, PADL and SER store and what they
leave unchanged, and the length of the padded message. -/

namespace Sys2Proof.Machine

/-! ### The frame of the padding micro-ops -/

/-- Everything but BUF, the free values' counter apart, is unchanged. -/
def SameButBuffer (s t : State) : Prop :=
  t.S = s.S ∧ SameCounts s t ∧ SameWork s t ∧ SameBytes s.DIG t.DIG ∧ SameStatus s t ∧ t.ROM = s.ROM ∧
    SameSequencer s t

/-- PAD80, PADZ and PADL are stores into BUF, and such a store has this frame. -/
theorem sameButBuffer_withBuffer (s : State) (m : Memory) : SameButBuffer s { s with BUF := m } :=
  ⟨rfl, ⟨rfl, rfl⟩, ⟨rfl, rfl, rfl, rfl, rfl⟩, fun _ => rfl, ⟨rfl, rfl, rfl⟩, rfl, .of_control rfl rfl⟩

/-! ### O35: PADL -/

/-- Four neighbouring bytes of a value are the word that begins with the first of them. -/
theorem le32_extractLsb'_bytes {w : Nat} (v : BitVec w) (n : Nat) :
    le32 (v.extractLsb' n 8) (v.extractLsb' (n + 8) 8) (v.extractLsb' (n + 16) 8) (v.extractLsb' (n + 24) 8) =
      v.extractLsb' n 32 := by
  rw [le32, BitVec.extractLsb'_append_extractLsb'_eq_extractLsb' (start₂ := n + 24) (start₁ := n + 16) rfl,
    BitVec.extractLsb'_append_extractLsb'_eq_extractLsb' (start₂ := n + 16) (start₁ := n + 8) rfl,
    BitVec.extractLsb'_append_extractLsb'_eq_extractLsb' (start₂ := n + 8) (start₁ := n) rfl]

/-- A message word whose bytes hold those of a value from bit `n` on is the word of the value there (R52). -/
theorem messageWord_of_read {s : State} {g : BitVec 4} {w n : Nat} {v : BitVec w}
    (h : ∀ j, j < 4 → s.BUF.read (4 * g.toNat + j) = some (v.extractLsb' (n + 8 * j) 8)) :
    messageWord s g = v.extractLsb' n 32 := by
  have hbyte (j : Nat) (hj : j < 4) : bufByte s (4 * g.toNat + j) = v.extractLsb' (n + 8 * j) 8 :=
    bufByte_of_read (h j hj)
  have hfirst : bufByte s (4 * g.toNat) = v.extractLsb' n 8 := hbyte 0 (by omega)
  rw [messageWord, hfirst, hbyte 1 (by omega), hbyte 2 (by omega), hbyte 3 (by omega)]
  exact le32_extractLsb'_bytes v n

/-- A 64-bit value is its low word plus 2^32 times its high word. -/
theorem toNat_eq_lowWord_add_highWord (v : BitVec 64) :
    v.toNat = (v.extractLsb' 0 32).toNat + 2 ^ 32 * (v.extractLsb' 32 32).toNat := by
  have hwords : v.extractLsb' 32 32 ++ v.extractLsb' 0 32 = v := by
    rw [BitVec.extractLsb'_append_extractLsb'_eq_extractLsb' (start₂ := 32) (start₁ := 0) rfl,
      BitVec.extractLsb'_eq_self]
  calc v.toNat = (v.extractLsb' 32 32 ++ v.extractLsb' 0 32).toNat := by rw [hwords]
    _ = (v.extractLsb' 0 32).toNat + 2 ^ 32 * (v.extractLsb' 32 32).toNat := by rw [toNat_append_add, Nat.add_comm]

theorem read_padLength_byte (s : State) {k : Nat} (hk : k < 8) :
    (padLength s).BUF.read (56 + k) = some ((s.CNT * 8).extractLsb' (8 * k) 8) := by
  rw [read_padLength, if_pos (by omega), Nat.add_sub_cancel_left]

theorem sameBytesOutside_padLength (s : State) : SameBytesOutside 56 63 s.BUF (padLength s).BUF :=
  fun addr hout => by rw [read_padLength, if_neg (by omega)]

/-- PADL puts the low word of the bit count in M[14] and its high word in M[15] (R52, R153). -/
theorem messageWord_padLength (s : State) {g : BitVec 4} (hg : 14 ≤ g.toNat) :
    messageWord (padLength s) g = (s.CNT * 8).extractLsb' (32 * (g.toNat - 14)) 32 := by
  refine messageWord_of_read fun j hj => ?_
  have hoffset : 8 * (4 * g.toNat + j - 56) = 32 * (g.toNat - 14) + 8 * j := by omega
  rw [read_padLength, if_pos (by omega), hoffset]

/-- Up to MAX_BYTES the bit count does not wrap (R153, R172). -/
theorem toNat_cnt_mul_eight {s : State} (h : s.CNT.toNat ≤ 2 ^ 61 - 1) : (s.CNT * 8).toNat = 8 * s.CNT.toNat := by
  bv_omega

/-- Settles O35: the eight bytes by address, the two words they form, and the sum of the words. -/
theorem padlStoresTheBitCount : Obligations.PadlStoresTheBitCount := by
  unfold Obligations.PadlStoresTheBitCount
  refine ⟨by decide, fun s => ?_⟩
  have hlow : messageWord (padLength s) 14 = (s.CNT * 8).extractLsb' 0 32 := messageWord_padLength s (by decide)
  have hhigh : messageWord (padLength s) 15 = (s.CNT * 8).extractLsb' 32 32 := messageWord_padLength s (by decide)
  refine ⟨padLength s, rfl, fun _ hk => read_padLength_byte s hk, hlow, hhigh, fun hmax => ?_,
    sameBytesOutside_padLength s, sameButBuffer_withBuffer s _⟩
  rw [hlow, hhigh, ← toNat_eq_lowWord_add_highWord, toNat_cnt_mul_eight hmax]

/-! ### O49: the length of the padded message -/

/-- Besides the message and the zeros stand the byte 0x80 and the eight bytes of the length field (R109). -/
theorem padded_length (msg : List Byte) : (padded msg).length = msg.length + 9 + zeroCount msg.length := by
  simp only [padded, List.length_append, List.length_singleton, List.length_replicate, bytesLE_length]
  omega

/-- The zeros and the length field fill the block of the byte 0x80 when both fit behind it, and the next one otherwise
(R154, R157). -/
theorem zeroCount_fills (n : Nat) : n + 9 + zeroCount n = 64 * (n / 64 + if n % 64 ≤ 55 then 1 else 2) := by
  unfold zeroCount
  split <;> omega

/-- Settles O49: the count of the zeros, and 9 bytes that are always there. -/
theorem paddedLengthIsTheBlockCount : Obligations.PaddedLengthIsTheBlockCount := by
  unfold Obligations.PaddedLengthIsTheBlockCount
  intro msg
  rw [padded_length]
  exact ⟨zeroCount_fills msg.length, Nat.le_add_right _ _⟩

/-! ### O33, O34: PAD80 and PADZ -/

/-- Settles O33: a write of one byte at LEN. -/
theorem pad80StoresThePaddingByte : Obligations.Pad80StoresThePaddingByte := by
  unfold Obligations.Pad80StoresThePaddingByte
  refine ⟨by decide, fun s => ?_⟩
  exact ⟨pad80 s, rfl, Memory.read_write_same _ _ _, sameBytesOutside_write _ _ _, sameButBuffer_withBuffer s _⟩

/-- Settles O34: a read inside the bounds gives zero, a read outside them the old byte. -/
theorem padzStoresZeros : Obligations.PadzStoresZeros := by
  unfold Obligations.PadzStoresZeros
  refine ⟨by decide, fun s => ?_⟩
  refine ⟨padZeros s.opLo.toNat s.opHi.toNat s, rfl, fun j hlo hhi => ?_, fun addr hout => ?_,
    sameButBuffer_withBuffer s _⟩
  · rw [padZeros_BUF, Memory.read_zeroFill, if_pos ⟨hlo, hhi⟩]
  · rw [padZeros_BUF, Memory.read_zeroFill, if_neg hout]

/-! ### O36: SER -/

theorem sameBytesOutside_serialise (s : State) : SameBytesOutside 0 15 s.DIG (serialise s).DIG :=
  fun addr hout => by rw [serialise_DIG, Memory.read_writeBytes, serialBytes_length, if_neg (by omega)]

/-- Settles O36: the sixteen bytes, PHASE, and the frame. -/
theorem serStoresTheDigest : Obligations.SerStoresTheDigest := by
  unfold Obligations.SerStoresTheDigest
  refine ⟨by decide, fun s => ?_⟩
  exact ⟨serialise s, rfl, holdsSerialised_serialise s, sameBytesOutside_serialise s, rfl, rfl, rfl, ⟨rfl, rfl⟩,
    fun _ => rfl, ⟨rfl, rfl, rfl, rfl, rfl⟩, rfl, rfl, rfl, .of_control rfl rfl⟩

end Sys2Proof.Machine
end

section
/-! PROOFS. Exceptions (60_exceptions): every state has a next state, what fault entry records and leaves unchanged (R171
to R176), phase FAULT and the ways out of it (R177, R178), the idle core (R184) and the cores of a system (R183). -/

namespace Sys2Proof.Machine

/-! ### O11, O13: an idle core, and no step stops -/

/-- Settles O11: the two edges at which the idle core accepts nothing. -/
theorem idleCoreHoldsItsState : Obligations.IdleCoreHoldsItsState := by
  unfold Obligations.IdleCoreHoldsItsState
  exact fun s hq => ⟨step_empty hq, fun _ => step_quiet hq⟩

/-- Acceptance of a word completes at either level. -/
theorem acceptWord_next (w : BitVec 10) (s : State) : ∃ t, acceptWord w s = .next t := by
  cases hl : s.level with
  | command => exact ⟨_, acceptWord_command w hl⟩
  | micro => exact ⟨_, acceptWord_micro w hl⟩

/-- Settles O13: by what the host does at the edge, and whether the core is busy there. -/
theorem everyStepAnswersNext : Obligations.EveryStepAnswersNext := by
  unfold Obligations.EveryStepAnswersNext
  intro s
  by_cases hr : s.stim.head? = some .rst
  · obtain ⟨rest, hs⟩ := List.head?_eq_some_iff.1 hr
    exact ⟨_, step_rst hs⟩
  · by_cases hq : s.SEQ = .idle
    · cases hs : s.stim with
      | nil => exact ⟨s, step_empty hq hs⟩
      | cons e rest =>
        cases e with
        | rst => exact absurd (congrArg List.head? hs) hr
        | quiet => exact ⟨_, step_quiet hq hs⟩
        | cmd w => exact step_accept hq hs ▸ acceptWord_next w _
    · exact ⟨_, step_busy hq hr⟩

/-! ### Fault entry (R176) -/

/-- The number of a cause's bit in ERRLOG (R32). -/
def Cause.bit : Cause → Fin 3
  | .misuse => 0
  | .overflow => 1
  | .illegal => 2

theorem logBit_getElem (cause : Cause) (n : Fin 3) : cause.logBit[n] = (n == cause.bit) := by
  revert n
  cases cause <;> decide

/-- What fault entry records, what the host sees of it, and all that it leaves unchanged (R176, R174). -/
def EntersFault (cause : Cause) (s t : State) : Prop :=
  t.ERR = cause.err ∧ (∀ n : Fin 3, t.ERRLOG[n] = (s.ERRLOG[n] || n == cause.bit)) ∧ t.PHASE = .fault ∧
    ShowsFault cause.err.code t ∧ (∀ addr, t.DIG.read addr = none) ∧ t.S = s.S ∧ SameCounts s t ∧
    SameBytes s.BUF t.BUF ∧ SameWork s t ∧ t.ROM = s.ROM ∧ SameSequencer s t

theorem raiseFault_ERRLOG_getElem (cause : Cause) (s : State) (n : Fin 3) :
    (raiseFault cause s).ERRLOG[n] = (s.ERRLOG[n] || n == cause.bit) := by
  rw [raiseFault_ERRLOG, ← logBit_getElem]
  exact BitVec.getElem_or n.isLt

theorem entersFault_raiseFault (cause : Cause) (s : State) : EntersFault cause s (raiseFault cause s) :=
  ⟨rfl, raiseFault_ERRLOG_getElem cause s, rfl, ⟨rfl, rfl, rfl, rfl, rfl⟩, Memory.read_nil, rfl, ⟨rfl, rfl⟩,
    fun _ => rfl, ⟨rfl, rfl, rfl, rfl, rfl⟩, rfl, .of_control rfl rfl⟩

/-- Settles O26: FLT raises the cause that the sequencer holds. -/
theorem fltEntersTheFaultPhase : Obligations.FltEntersTheFaultPhase := by
  unfold Obligations.FltEntersTheFaultPhase
  refine ⟨by decide, fun s => ⟨raiseFault s.opCause s, rfl, ?_⟩⟩
  obtain ⟨herr, hlog, hphase, hshows, hdig, hframe⟩ := entersFault_raiseFault s.opCause s
  refine ⟨fun hc => ?_, fun hc => ?_, fun hc => ?_, hdig, hphase, hframe⟩ <;> rw [hc] at herr hlog hshows ⊢
  all_goals exact ⟨herr, hshows, hlog⟩

/-! ### O18, O19, O20: the three causes (R171, R172, R173) -/

/-- UPD at MAX_BYTES fails its OVERFLOW test (R102). -/
theorem updAction_of_max {s : State} (x : Byte) (hp : s.PHASE = .absorb) (hc : s.CNT = maxBytes) :
    updAction x s = .raise .overflow := by
  simp only [updAction, hp, if_pos hc]

theorem updAction_of_done {s : State} (x : Byte) (hp : s.PHASE = .done) : updAction x s = .raise .misuse := by
  simp only [updAction, hp]

theorem finAction_of_done {s : State} (hp : s.PHASE = .done) : finAction s = .raise .misuse := by
  simp only [finAction, hp]

/-- Settles O18: at the bound the test of UPD raises OVERFLOW. -/
theorem updAtMaxBytesOverflows : Obligations.UpdAtMaxBytesOverflows := by
  unfold Obligations.UpdAtMaxBytesOverflows
  intro x s hp hc
  have hmax : s.CNT = maxBytes := BitVec.eq_of_toNat_eq hc
  refine ⟨raiseFault .overflow s, ?_, entersFault_raiseFault .overflow s⟩
  rw [exec, execUpd, updAction_of_max x hp hmax, perform]

/-- Settles O19: the dispatch of UPD and FIN by phase raises MISUSE in DONE. -/
theorem updAndFinAfterFinAreMisuse : Obligations.UpdAndFinAfterFinAreMisuse := by
  unfold Obligations.UpdAndFinAfterFinAreMisuse
  intro s i hp hi
  refine ⟨raiseFault .misuse s, ?_, entersFault_raiseFault .misuse s⟩
  obtain rfl | ⟨x, rfl⟩ := hi
  · rw [exec, execFin, finAction_of_done hp, perform]
  · rw [exec, execUpd, updAction_of_done x hp, perform]

theorem commandAction_of_reserved {w : BitVec 10} {s : State} (hw : ∀ i, decode (.cmd w) ≠ .instr i)
    (hp : s.PHASE ≠ .fault) : commandAction w s = .raise .illegal := by
  have hd : decodeCmd w = .rejected (.reservedCommand w) := by
    obtain hd | hd | hd | hd := decodeCmd_cases w
    · exact absurd hd (hw _)
    · exact absurd hd (hw _)
    · exact absurd hd (hw _)
    · exact hd
  simp only [commandAction, hd, illegalAction]
  cases hq : s.PHASE with
  | absorb => rfl
  | done => rfl
  | fault => exact absurd hq hp

/-- An idle core that is offered a word is ready (R37). -/
theorem cmdReady_of_offered {s : State} {w : BitVec 10} {rest : List HostEvent} (hq : s.SEQ = .idle)
    (hs : s.stim = .cmd w :: rest) : cmdReady s = true := by
  simp [cmdReady, rstPin, hq, hs]

/-- Settles O20: the word is taken, and the rest of the step is fault entry. -/
theorem reservedWordsAreIllegal : Obligations.ReservedWordsAreIllegal := by
  unfold Obligations.ReservedWordsAreIllegal
  intro s w rest ⟨hq, hl⟩ hp hs hw
  have hstep := step_command hq hl hs
  rw [commandAction_of_reserved hw hp, perform] at hstep
  obtain ⟨herr, hlog, hphase, hshows, hdig, hchain, hcounts, hbuf, hwork, hrom, hseq⟩ :=
    entersFault_raiseFault .illegal { s with stim := rest }
  exact ⟨cmdReady_of_offered hq hs, _, hstep, herr, hlog, hphase, hshows, hdig, hchain, hcounts, hbuf, hwork, hrom,
    rfl, hseq⟩

/-! ### O21, O45: phase FAULT and the ways out of it (R177, R178) -/

/-- Every word but that of INIT is discarded in phase FAULT. -/
theorem commandAction_of_fault {w : BitVec 10} {s : State} (hp : s.PHASE = .fault) (hw : w ≠ 0x000) :
    commandAction w s = .discard := by
  obtain hd | hd | hd | hd := decodeCmd_cases w
  · simp only [commandAction, hd, updAction, hp]
  · exact absurd (Code.cmd.inj (encode_of_decodeCmd hd)).symm hw
  · simp only [commandAction, hd, finAction, hp]
  · simp only [commandAction, hd, illegalAction, hp]

/-- Settles O21: at both levels the accepted word is discarded. -/
theorem faultPhaseDiscardsEveryWordButInit : Obligations.FaultPhaseDiscardsEveryWordButInit := by
  unfold Obligations.FaultPhaseDiscardsEveryWordButInit
  intro s w rest hq hp hs hw
  have hdiscard := commandAction_of_fault hp hw
  refine ⟨cmdReady_of_offered hq hs, by simp [errFlag, hp], by simp [digestValid, hp],
    by simp [ports, digestValid, hp], ?_⟩
  obtain hl | hl : s.level = .command ∨ s.level = .micro := by cases s.level <;> simp
  · have hstep := step_command hq hl hs
    rw [hdiscard] at hstep
    exact hstep
  · have hstep := step_micro hq hl hs
    rw [hdiscard] at hstep
    exact hstep

@[simp] theorem startAction_PHASE (action : Action) (s : State) : (startAction action s).PHASE = s.PHASE := by
  cases action <;> rfl

/-- In phase FAULT a busy core stands at LDIV or FLT (R100). -/
theorem Inv.seq_of_fault {s : State} (h : Inv s) (hp : s.PHASE = .fault) (hq : s.SEQ ≠ .idle) :
    s.SEQ = .ldiv ∨ s.SEQ = .flt := by
  have hnot : s.SEQ.absorbing = false := by
    by_contra ha
    simp [h.absorbPhase (by simpa using ha)] at hp
  exact (Seq.cases_of_not_absorbing hnot).resolve_left hq

/-- Settles O45: of the edges and micro-ops possible in FAULT only reset, INIT and its LDIV write PHASE. -/
theorem onlyInitAndResetLeaveFault : Obligations.OnlyInitAndResetLeaveFault := by
  unfold Obligations.OnlyInitAndResetLeaveFault
  intro s t h ht hp hleft
  obtain ⟨rest, hs, rfl⟩ | ⟨-, -, rfl⟩ | ⟨-, rest, -, rfl⟩ | ⟨hq, hl, w, rest, hs, rfl⟩ | ⟨-, -, w, rest, -, rfl⟩ |
    ⟨hq, -, rfl⟩ := step_cases ht
  · exact ⟨.inl (by rw [hs]; rfl), rfl, rfl⟩
  · exact absurd hp hleft
  · exact absurd hp hleft
  · by_cases hw : w = 0x000
    · rw [hw, commandAction_init] at hleft ⊢
      exact ⟨.inr (.inl ⟨⟨hq, hl⟩, by rw [hs, hw]; rfl⟩), rfl, rfl⟩
    · rw [commandAction_of_fault hp hw] at hleft
      exact absurd hp hleft
  · rw [startAction_PHASE] at hleft
    exact absurd hp hleft
  · obtain hq | hq := h.seq_of_fault hp hq
    · exact ⟨.inr (.inr hq), by simp [microEffect, hq], by simp [microEffect, hq]⟩
    · simp [microEffect, hq] at hleft

/-! ### O52: the cores of a system do not interact -/

/-- Settles O52: whatever the schedule, the turns of core `k` are a run of that core alone, and O48 says where it ends. -/
theorem instancesDoNotInteract : Obligations.InstancesDoNotInteract := by
  unfold Obligations.InstancesDoNotInteract
  intro sys schedule k msg s rest hk hmax hs hrom hstim hcount
  obtain ⟨t, hrun, hboundary, hrest, hphase, herr, -, -, -, hdig⟩ :=
    everyMessageGetsItsDigest msg s rest hmax hs hrom hstim
  exact ⟨t, runSchedule_runs schedule hk hcount hrun, hboundary, hrest, hphase, herr, hdig⟩

end Sys2Proof.Machine
end

section
/-! PROOFS. Reset and hazards (70_reset_and_hazards): every command completes (R211), a reset edge creates an
Accumulator and leaves no trace of the command it abandons (R200, R202), and a word offered to a busy core waits
(R205). -/

namespace Sys2Proof.Machine

/-! ### The host's events (R213) -/

@[simp] theorem withStim_SEQ (s : State) (stim : List HostEvent) : (s.withStim stim).SEQ = s.SEQ := (rfl)
@[simp] theorem withStim_i (s : State) (stim : List HostEvent) : (s.withStim stim).i = s.i := (rfl)
@[simp] theorem withStim_caller (s : State) (stim : List HostEvent) : (s.withStim stim).caller = s.caller := (rfl)

/-! ### The micro-ops that a busy core has left (R134, R150; log entry 12) -/

/-- The micro-ops that follow CEND: none in UPD; after the first of two final blocks the second one (PADZ, PADL,
Compress) and SER; after the last final block SER. -/
def opsAfterCend : Caller → Nat
  | .upd => 0
  | .finFirst => 69
  | .finLast => 1

/-- The micro-ops until SEQ is IDLE again, the one that SEQ names included. Compress is 66 of them: CBEG, the 64 steps
and CEND; the first of two final blocks has no PADL between its PADZ and its CBEG. -/
def microOpsLeft (s : State) : Nat :=
  match s.SEQ with
  | .idle => 0
  | .ldiv | .flt | .ser => 1
  | .absb => if s.LEN = 63#6 then 67 else 1
  | .cbeg => 66 + opsAfterCend s.caller
  | .stepF | .stepG | .stepH | .stepI => 65 - s.i.toNat + opsAfterCend s.caller
  | .cend => 1 + opsAfterCend s.caller
  | .pad80 => if s.LEN.toNat ≤ 55 then 70 else 137
  | .padz => (if s.caller = .finFirst then 67 else 68) + opsAfterCend s.caller
  | .padl => 67 + opsAfterCend s.caller

theorem microOpsLeft_of_isStep {s : State} (h : s.SEQ.isStep = true) :
    microOpsLeft s = 65 - s.i.toNat + opsAfterCend s.caller := by
  obtain hq | hq | hq | hq := Seq.eq_step_of_isStep h <;> simp only [microOpsLeft, hq]

theorem microOpsLeft_withStim (s : State) (stim : List HostEvent) : microOpsLeft (s.withStim stim) = microOpsLeft s :=
  (rfl)

theorem opsAfterCend_le (caller : Caller) : opsAfterCend caller ≤ 69 := by cases caller <;> decide

/-- The longest sequence is that of FIN with two final blocks, from its PAD80 on. -/
theorem microOpsLeft_le (s : State) : microOpsLeft s ≤ 137 := by
  have hcend := opsAfterCend_le s.caller
  cases hq : s.SEQ with
  | absb | pad80 => simp only [microOpsLeft, hq]; split <;> omega
  | padz => cases hc : s.caller <;> simp [microOpsLeft, hq, hc, opsAfterCend]
  | _ => simp only [microOpsLeft, hq]; omega

/-- A step of a compression takes one micro-op off the rest, the step with i = 63 too. -/
theorem microOpsLeft_after_step {s : State} (h : s.SEQ.isStep = true) :
    microOpsLeft (advance s (microEffect s)) + 1 = microOpsLeft s := by
  rw [advance_of_isStep h, microOpsLeft_of_isStep h]
  by_cases hi : s.i = 63#6
  · rw [if_pos hi, hi]
    simp only [microOpsLeft, romStep_caller, BitVec.toNat_ofNat]
    omega
  · rw [if_neg hi, microOpsLeft_of_isStep (isStep_stepSeq _)]
    have hnext := toNat_stepCounter_add_one hi
    have hlt := (s.i + 1).isLt
    simp only [(romStep_of_lt hi).1, romStep_caller]
    omega

/-- Every micro-op of a busy core takes exactly itself off the rest. -/
theorem microOpsLeft_after_microOp {s : State} (h : s.SEQ ≠ .idle) :
    microOpsLeft (advance s (microEffect s)) + 1 = microOpsLeft s := by
  cases hq : s.SEQ with
  | idle => exact absurd hq h
  | stepF | stepG | stepH | stepI => exact microOpsLeft_after_step (by rw [hq]; rfl)
  | ldiv | flt | ser => simp [microOpsLeft, advance, hq]
  | absb => by_cases hlen : s.LEN = 63#6 <;> simp [microOpsLeft, advance, microEffect, hq, hlen, opsAfterCend]
  | cbeg =>
    have hnext : advance s (microEffect s) = { beginCompress s with SEQ := stepSeq (romRow (beginCompress s)) } := by
      simp only [advance, microEffect, hq]
    rw [hnext, microOpsLeft_of_isStep (isStep_stepSeq _)]
    simp only [microOpsLeft, hq, beginCompress_i, beginCompress_caller, BitVec.ofNat_eq_ofNat, BitVec.toNat_ofNat]
    omega
  | cend => cases hc : s.caller <;> simp [microOpsLeft, advance, microEffect, hq, hc, opsAfterCend]
  | pad80 => by_cases hlen : s.LEN.toNat ≤ 55 <;> simp [microOpsLeft, advance, microEffect, hq, hlen, opsAfterCend]
  | padz => cases hc : s.caller <;> simp [microOpsLeft, advance, microEffect, hq, hc, opsAfterCend]
  | padl => simp only [microOpsLeft, advance, microEffect, hq, padLength_caller]; omega

/-! ### O14: every command completes (R211) -/

/-- Whatever the host does, a step of a busy core leaves fewer micro-ops: none after a reset edge, else one fewer. -/
theorem step_leaves_fewer_microOps {s : State} (hq : s.SEQ ≠ .idle) :
    ∃ t, step s = .next t ∧ microOpsLeft t < microOpsLeft s := by
  have hop := microOpsLeft_after_microOp (s := s.withStim (heldStim s.stim)) hq
  rw [microOpsLeft_withStim] at hop
  by_cases hr : s.stim.head? = some .rst
  · obtain ⟨rest, hs⟩ := List.head?_eq_some_iff.1 hr
    have hreset : microOpsLeft (resetCore (s.withStim rest)) = 0 := rfl
    exact ⟨resetCore (s.withStim rest), step_rst hs, by omega⟩
  · exact ⟨_, step_busy hq hr, Nat.lt_of_succ_le hop.le⟩

/-- A core with at most `n` micro-ops left is idle within `n` steps. -/
theorem runs_to_idle {n : Nat} {s : State} (h : microOpsLeft s ≤ n) : ∃ m t, m ≤ n ∧ Runs m s t ∧ t.SEQ = .idle := by
  induction n generalizing s with
  | zero =>
    refine ⟨0, s, le_rfl, rfl, ?_⟩
    by_contra hq
    obtain ⟨t, -, hlt⟩ := step_leaves_fewer_microOps hq
    omega
  | succ n ih =>
    by_cases hq : s.SEQ = .idle
    · exact ⟨0, s, by omega, rfl, hq⟩
    · obtain ⟨u, hu, hlt⟩ := step_leaves_fewer_microOps hq
      obtain ⟨m, t, hm, hrun, ht⟩ := ih (s := u) (by omega)
      exact ⟨m + 1, t, by omega, ⟨u, hu, hrun⟩, ht⟩

/-- Settles O14: no state has more than 137 micro-ops left, and every step of a busy core lowers their number. -/
theorem busyCoreBecomesReady : Obligations.BusyCoreBecomesReady := by
  unfold Obligations.BusyCoreBecomesReady
  exact fun s => runs_to_idle (microOpsLeft_le s)

/-! ### O7, O8: the reset edge (R200, R202) -/

/-- No command is accepted at a reset edge (R37). -/
theorem cmdReady_of_rst {s : State} {rest : List HostEvent} (h : s.stim = .rst :: rest) : cmdReady s = false := by
  simp [cmdReady, rstPin, h]

/-- Settles O7: the reset edge, register by register. -/
theorem resetEdgeCreatesAnAccumulator : Obligations.ResetEdgeCreatesAnAccumulator := by
  unfold Obligations.ResetEdgeCreatesAnAccumulator
  exact fun s rest h => ⟨cmdReady_of_rst h, _, step_rst h, rfl, rfl, rfl, rfl, rfl, rfl, rfl, rfl, Memory.read_nil,
    Memory.read_nil, rfl, rfl⟩

/-- Reset keeps the ROM, the level, the host's events and the counter of free values, and writes the rest from these. -/
theorem resetCore_congr {s t : State} (hrom : t.ROM = s.ROM) (hlevel : t.level = s.level) (hstim : t.stim = s.stim)
    (hfresh : t.fresh = s.fresh) : resetCore t = resetCore s := by
  simp only [resetCore, createAccumulator, dropBuffer, loadInitial, freeWork, hrom, hlevel, hstim, hfresh]

/-- Settles O8: both states take the same reset edge. -/
theorem resetErasesTheAbandonedCommand : Obligations.ResetErasesTheAbandonedCommand := by
  unfold Obligations.ResetErasesTheAbandonedCommand
  intro s s' hr hstim hrom hlevel hfresh
  obtain ⟨rest, hs⟩ := List.head?_eq_some_iff.1 hr
  rw [step_rst hs, step_rst (hstim.trans hs)]
  exact congrArg Host.Outcome.next
    (resetCore_congr (s := s.withStim rest) (t := s'.withStim rest) hrom hlevel rfl hfresh)

/-! ### O12: a word offered to a busy core (R205) -/

theorem microEffect_withStim (s : State) (stim : List HostEvent) :
    microEffect (s.withStim stim) = (microEffect s).withStim stim := by
  simp only [microEffect, withStim_SEQ]
  split <;> rfl

@[simp] theorem microEffect_stim (s : State) : (microEffect s).stim = s.stim := by
  have h : microEffect s = (microEffect s).withStim s.stim := microEffect_withStim s s.stim
  rw [h, State.withStim]

theorem advance_withStim (s t : State) (stim : List HostEvent) :
    advance (s.withStim stim) (t.withStim stim) = (advance s t).withStim stim := by
  simp only [advance, withStim_SEQ, withStim_LEN, withStim_i, withStim_caller]
  split <;> (try split) <;> rfl

/-- While the host waits, the edge of a busy core is its micro-op and nothing else. -/
theorem step_busy_of_hostWaits {s : State} (hq : s.SEQ ≠ .idle) (hw : HostWaits s.stim) :
    step s = .next (advance s (microEffect s)) := by
  rw [step_busy hq hw.no_reset, hw.heldStim_eq]

/-- Settles O12: the busy core runs its micro-op, which neither reads nor writes what the host offers. -/
theorem offerWhileBusyHasNoEffect : Obligations.OfferWhileBusyHasNoEffect := by
  unfold Obligations.OfferWhileBusyHasNoEffect
  intro s w rest hq hs
  have hempty := step_busy_of_hostWaits (s := s.withStim []) hq (.inl rfl)
  rw [microEffect_withStim, advance_withStim] at hempty
  exact ⟨by simp [cmdReady, hq], _, step_busy_of_hostWaits hq (.inr ⟨w, rest, hs⟩), by simp, hempty⟩

end Sys2Proof.Machine
end

section
/-! PROOFS. Byte memory of 20_memory as data: a canonical memory is determined by what it reads (log entry 6). -/

namespace Sys2Proof.Machine

/-! ### What a canonical memory lists -/

theorem Memory.mem_of_read {m : Memory} {addr : Nat} {v : Byte} (h : m.read addr = some v) : (addr, v) ∈ m := by
  induction m with
  | nil => simp at h
  | cons cell rest ih =>
    obtain ⟨x, u⟩ := cell
    rw [Memory.read_cons] at h
    split at h
    · next heq =>
      obtain rfl := Option.some.inj h
      exact heq ▸ List.mem_cons_self
    · exact List.mem_cons_of_mem _ (ih h)

/-- No byte is listed below the first address. -/
theorem Memory.head_le_of_read {x addr : Nat} {u v : Byte} {rest : Memory} (hwf : Memory.wf ((x, u) :: rest) = true)
    (h : Memory.read ((x, u) :: rest) addr = some v) : x ≤ addr := by
  rcases List.mem_cons.1 (Memory.mem_of_read h) with heq | hmem
  · exact (congrArg Prod.fst heq).ge
  · exact Nat.le_of_lt (((Memory.wf_cons_iff x u rest).1 hwf).2 _ hmem)

/-- The rest of a canonical memory reads as the whole, without the first address. -/
theorem Memory.read_tail {x : Nat} {u : Byte} {rest : Memory} (hwf : Memory.wf ((x, u) :: rest) = true) (addr : Nat) :
    Memory.read rest addr = if addr = x then none else Memory.read ((x, u) :: rest) addr := by
  split
  · next heq =>
    subst heq
    refine Option.eq_none_iff_forall_ne_some.2 fun v hread => ?_
    exact Nat.lt_irrefl addr (((Memory.wf_cons_iff addr u rest).1 hwf).2 _ (Memory.mem_of_read hread))
  · next hne => rw [Memory.read_cons, if_neg hne]

@[simp] theorem Memory.read_head (x : Nat) (u : Byte) (rest : Memory) :
    Memory.read ((x, u) :: rest) x = some u := by
  rw [Memory.read_cons, if_pos rfl]

/-! ### Memories that read alike -/

theorem not_sameBytes_nil_cons (x : Nat) (u : Byte) (rest : Memory) : ¬ SameBytes [] ((x, u) :: rest) := by
  intro h
  simpa using h x

theorem SameBytes.symm {m m' : Memory} (h : SameBytes m m') : SameBytes m' m := fun addr => (h addr).symm

section
variable {x y : Nat} {u v : Byte} {rest rest' : Memory} (hwf : Memory.wf ((x, u) :: rest) = true)
  (hwf' : Memory.wf ((y, v) :: rest') = true) (h : SameBytes ((x, u) :: rest) ((y, v) :: rest'))
include hwf hwf' h

/-- Each first address is listed in the other memory, so neither lies below the other. -/
theorem SameBytes.head_eq : (x, u) = (y, v) := by
  have hxy : x ≤ y := Memory.head_le_of_read hwf ((h y).symm.trans (Memory.read_head y v rest'))
  have hyx : y ≤ x := Memory.head_le_of_read hwf' ((h x).trans (Memory.read_head x u rest))
  obtain rfl := Nat.le_antisymm hxy hyx
  have hval : some v = some u := by simpa using h x
  rw [Option.some.inj hval]

theorem SameBytes.tail : SameBytes rest rest' := by
  obtain ⟨rfl, rfl⟩ := Prod.mk.inj (h.head_eq hwf hwf')
  intro addr
  rw [Memory.read_tail hwf, Memory.read_tail hwf', h addr]
end

/-- Settles O39: by induction on both lists, the first cells agree and the rests read alike. -/
theorem canonicalMemoriesAreEqualWhenTheyReadAlike : Obligations.CanonicalMemoriesAreEqualWhenTheyReadAlike := by
  unfold Obligations.CanonicalMemoriesAreEqualWhenTheyReadAlike
  intro m
  induction m with
  | nil =>
    rintro (_ | ⟨⟨y, v⟩, rest'⟩) - - h
    · rfl
    · exact absurd h (not_sameBytes_nil_cons y v rest')
  | cons cell rest ih =>
    obtain ⟨x, u⟩ := cell
    rintro (_ | ⟨⟨y, v⟩, rest'⟩) hwf hwf' h
    · exact absurd h.symm (not_sameBytes_nil_cons x u rest)
    · have hrest : rest = rest' :=
        ih rest' ((Memory.wf_cons_iff x u rest).1 hwf).1 ((Memory.wf_cons_iff y v rest').1 hwf').1 (h.tail hwf hwf')
      rw [h.head_eq hwf hwf', hrest]

end Sys2Proof.Machine
end
